-- ==== Sys2Proof/Word.lean ====
section
/-! DEFINITION. The word types of the ZV2240: bytes of the serial lines and the store, and the
Timebase Unit's tick count. -/

namespace Sys2Proof

/-- A byte of a serial line or of the nonvolatile array (R140, R177). -/
abbrev Byte := BitVec 8

/-- The Timebase Unit's tick count, 0..4,294,967,295, which wraps (R1). -/
abbrev Tick := BitVec 32

/-- The 16-bit CRC register (R178). -/
abbrev Crc := BitVec 16

end Sys2Proof
end

