-- ==== Sys2Proof/Config.lean ====
section
/-! DEFINITION. The values the manual leaves open. Each is a constant with no body, so nothing can
be proved of its value and every statement holds whatever it is. -/

namespace Sys2Proof

/-- DESIGN CHOICE (assumption 1). R178 says both that the CRC is computed over the kind byte through
the last payload byte and that the address and length bytes are not covered. Which of the two the
part does is left free: true when the address and length bytes are skipped. -/
opaque Config.crcSkipsAddressAndLength : Bool

/-- DESIGN CHOICE (assumption 2). R153: a block cut during erase or programming is left in any
state. Byte `j` of what the `n`-th such cut leaves. -/
opaque Config.cutByte (n j : Nat) : BitVec 8

/-- DESIGN CHOICE (assumption 3). The bytes of a reply's data whose value R179 and R180 do not
state: the stop byte of a search that found nothing, the status bytes of a detail field that is NONE,
and the bits of two status bytes that name nothing. Byte `j` of the `n`-th reply that has one. -/
opaque Config.unstatedByte (n j : Nat) : BitVec 8

end Sys2Proof
end

