-- ==== Sys2Proof/Syntax.lean ====
section
/-! DEFINITION. The commands of the ZV2240: one constructor for each row of the opcode table. A row
that is a command frame carries the panel address and the parameter bytes as they came on the line
(R177, R179), so that a wrong length or a byte that names nothing can be sent and is answered as
R169 and R180 say. A row that is an event names the timer, list or line it concerns. -/

namespace Sys2Proof

/-- The two chambers, which also name the two chamber links (section 5 of the scope file). -/
inductive Chamber where
  | main | solo
deriving DecidableEq, Repr

/-- The commands and events of the part. -/
inductive Instr where
  /-- START (R153). Power-up or the rise of the RESET line ends all work in progress and sets
  every unit to its reset value. -/
  | start
  /-- START_DONE (R151). The end of the start-up load raises START DONE, sets the started flag and
  the enable set, releases the chamber transmitters and makes the first refresh sweep. -/
  | startDone
  /-- BAD_FRAME (R166). An inbound frame with length above 64, a bad CRC or a kind other than SCAN
  or COMMAND is discarded with FRAME ERROR. `bytes` are those received after the frame mark, up to
  the byte that ended the frame. -/
  | badFrame (bytes : List Byte)
  /-- BYTE_GAP (R166). A byte of an unfinished inbound frame fails to arrive within 4 ticks, so
  the frame is discarded with FRAME ERROR and the FIU returns to hunting. `bytes` are those
  received after the frame mark before the gap. -/
  | byteGap (bytes : List Byte)
  /-- SCAN_FRAME (R7). A scan frame with good CRC is judged by the ISU and, if accepted, changes
  the board state and processes its contacts. The frame has a good CRC. -/
  | scanFrame (address : Byte) (payload : List Byte)
  /-- SILENCE_TIMER_EXPIRY (R6). A LIVE board's silence timer reaches its timeout and the board
  goes LOST. -/
  | silenceTimerExpiry (board : Nat)
  /-- PIZZICATO_EXPIRY (R51). A Pizzicato List entry's expiry tick is reached, and the entry is
  removed and its contribution ended. The entry is the first in list order whose expiry has been
  reached (R51). -/
  | pizzicatoExpiry
  /-- PULSE_END (R69). A note's pulse timer expires, so the note rests, the count striking falls
  and the head of the Strike Queue starts striking. -/
  | pulseEnd (unit note : Nat)
  /-- REST_END (R70). A note's rest timer expires, so the note goes IDLE and a set pending flag
  makes a strike request. -/
  | restEnd (unit note : Nat)
  /-- REITERATOR_BEAT (R76). A unit's reiterator counter reaches the interval and a strike request
  is made for each note with reiteration demand, in ascending order. -/
  | reiteratorBeat (unit : Nat)
  /-- TRAP_PULSE_END (R90). A channel's pulse timer expires, so the channel rests and its output
  condition is taken afresh. -/
  | trapPulseEnd (channel : Nat)
  /-- TRAP_REST_END (R90). A channel's rest timer expires, so the channel goes IDLE and a set
  pending flag makes a strike request. -/
  | trapRestEnd (channel : Nat)
  /-- TRAP_BEAT (R92). A channel's beat counter reaches the interval and makes a strike request in
  a REITERATE roll or a COUNTED run. -/
  | trapBeat (channel : Nat)
  /-- PHASE_END (R104). A FREE generator's phase counter reaches the phase length, so the phase
  changes, the gating takes the on-phase start or end, and slaves count the beat. -/
  | phaseEnd (tremulant : Nat)
  /-- STEP_END (R116). An expression channel's step timer ends, so the current stage moves one
  stage toward the target and the timer restarts if they still differ. -/
  | stepEnd (channel : Nat)
  /-- TAB_DRIVE_FRAME_COMPLETE (R134). A tab-drive frame completes, so each drive enters the
  Settle List or is requeued for the present stop state, and the arbiter chooses again. -/
  | tabDriveFrameComplete
  /-- SETTLE_EXPIRY (R136). A Settle List entry expires and the RGU checks the tab, then ends the
  matter, retries with attempt 2, or marks the stop FAULTY. The entry is the head of the Settle
  List, which is ordered by expiry (R135). -/
  | settleExpiry
  /-- REPLY_FRAME_COMPLETE (R168). A reply frame completes on the return line and the arbiter
  chooses the next frame. -/
  | replyFrameComplete
  /-- BOARD_FRAME_COMPLETE (R162). A board frame completes on a chamber link, and the transmitter
  starts the next board or goes IDLE. -/
  | boardFrameComplete (link : Chamber)
  /-- REFRESH_SWEEP (R163). The refresh timer expires, each link's present boards are appended to
  their queues, and the timer restarts. -/
  | refreshSweep
  /-- ERASE_END (R144). An erase completes and the engine starts the verify for a blank image, or
  the program otherwise. `flaws` are the bytes (offset in the block, value) that the cells left
  otherwise than R140 says; empty for a sound block. -/
  | eraseEnd (flaws : List (Nat × Byte))
  /-- PROGRAM_END (R144). A program completes and the engine starts the verify. `flaws` as in
  ERASE_END. -/
  | programEnd (flaws : List (Nat × Byte))
  /-- VERIFY_END (R144). A verify completes, and on a match the entry leaves the queue and the
  engine takes the next head. -/
  | verifyEnd
  /-- START_AFRESH (R172). Once the drain has ended and the RESTART reply has been sent, the part
  starts afresh as at START and runs the start-up load. -/
  | startAfresh
  /-- UNKNOWN_COMMAND (R169). A command frame with an empty payload or an identifier that names no
  command is answered UNKNOWN. `payload` is empty or begins with an identifier that names no
  command. -/
  | unknownCommand (panel : Byte) (payload : List Byte)
  /-- LOAD_ENTRY (R170). One table entry is loaded into the working table by its owning unit's
  checks, with withdraw-and-reapply where given. -/
  | loadEntry (panel : Byte) (params : List Byte)
  /-- READ_ENTRY (R170). The working entry of a table at an index is returned. -/
  | readEntry (panel : Byte) (params : List Byte)
  /-- FILL_ENTRIES (R171). One entry is loaded into a span of indices in ascending order, stopping
  at the first refused load. -/
  | fillEntries (panel : Byte) (params : List Byte)
  /-- SEARCH_REFERENCES (R39). The lowest valid stop at or above the start that references the
  target is returned, or NONE. -/
  | searchReferences (panel : Byte) (params : List Byte)
  /-- COMMIT_TABLES (R149). A COMMIT bulk job is started that writes the 341 configuration blocks
  from the working tables. -/
  | commitTables (panel : Byte) (params : List Byte)
  /-- COPY_LEVEL (R150). A COPY bulk job is started that copies one level's 70 memories onto
  another level. -/
  | copyLevel (panel : Byte) (params : List Byte)
  /-- CAPTURE (R127). The registration in scope of a memory on the current level is written to the
  Write Queue, unless the level is locked or the queue has no room. -/
  | capture (panel : Byte) (params : List Byte)
  /-- RECALL (R128). A memory of the current level is read and the stops in its scope are set from
  it, with stop events and tab drives. -/
  | recall (panel : Byte) (params : List Byte)
  /-- CANCEL (R129). Every stop of a division, or all stops, is set OFF. -/
  | cancel (panel : Byte) (params : List Byte)
  /-- POP (R131). The top Registration Stack record is removed and applied as a general recall. -/
  | pop (panel : Byte) (params : List Byte)
  /-- SET_STOPS (R122). The stops of the on-set are set ON and those of the off-set OFF, in
  ascending order. -/
  | setStops (panel : Byte) (params : List Byte)
  /-- SELECT_LEVEL (R125). The current memory level is set. -/
  | selectLevel (panel : Byte) (params : List Byte)
  /-- LOCK_LEVEL (R126). A level's lock flag is set and the working Settings are written to the
  store. -/
  | lockLevel (panel : Byte) (params : List Byte)
  /-- UNLOCK_LEVEL (R126). A level's lock flag is cleared and the working Settings are written to
  the store. -/
  | unlockLevel (panel : Byte) (params : List Byte)
  /-- CLEAR_TAB_FAULT (R137). A stop's tab fault mark is cleared, and a disagreeing tab is re-
  driven. -/
  | clearTabFault (panel : Byte) (params : List Byte)
  /-- CUE_TRIGGER (R94). A trigger is made on each channel of the set, in ascending order. -/
  | cueTrigger (panel : Byte) (params : List Byte)
  /-- CUE_HOLD_ON (R94). The cue-hold flag is set on each channel of the set, raising its demand.
  -/
  | cueHoldOn (panel : Byte) (params : List Byte)
  /-- CUE_HOLD_OFF (R94). The cue-hold flag is cleared on each channel of the set, lowering its
  demand. -/
  | cueHoldOff (panel : Byte) (params : List Byte)
  /-- SET_REITERATION (R77). A percussion unit's reiteration interval is changed live without
  withdraw. -/
  | setReiteration (panel : Byte) (params : List Byte)
  /-- SET_REITERATION_TRAP (R95). A trap channel's beat interval is changed live without withdraw.
  -/
  | setReiterationTrap (panel : Byte) (params : List Byte)
  /-- SET_TREMULANT (R106). A tremulant's on length and off length are replaced, taking effect at
  the next phase start. -/
  | setTremulant (panel : Byte) (params : List Byte)
  /-- ASSIGN_SHOE (R118). An expression channel's source shoe is changed and a fresh reading of
  that shoe is taken. -/
  | assignShoe (panel : Byte) (params : List Byte)
  /-- SOUND_PIPE (R54). A pipe's direct flag is set, adding one to its demand count. -/
  | soundPipe (panel : Byte) (params : List Byte)
  /-- SILENCE_PIPE (R54). A pipe's direct flag is cleared, taking one from its demand count. -/
  | silencePipe (panel : Byte) (params : List Byte)
  /-- SILENCE_DIRECT (R55). Every direct flag that is set is cleared, in rank and pipe order. -/
  | silenceDirect (panel : Byte) (params : List Byte)
  /-- MUTE (R56). A chamber's mute flag is set, wanted pipes get request-off, and the PTU is told.
  -/
  | mute (panel : Byte) (params : List Byte)
  /-- UNMUTE (R56). A chamber's mute flag is cleared, wanted pipes get request-on, and the PTU is
  told. -/
  | unmute (panel : Byte) (params : List Byte)
  /-- RELEASE_ALL (R61). All key contacts are suppressed and released, direct flags cleared, and
  cue holds, Strike Queues, pending flags and COUNTED runs cleared. -/
  | releaseAll (panel : Byte) (params : List Byte)
  /-- READ_STATUS (R175). The status of boards, causes, details, level, store engine, job, mutes
  and sequencer is returned. -/
  | readStatus (panel : Byte) (params : List Byte)
  /-- ACKNOWLEDGE (R174). The named causes are removed from the attention cause set. -/
  | acknowledge (panel : Byte) (params : List Byte)
  /-- FORCE_CAUSE (R174). The named causes are added to the attention cause set for test. -/
  | forceCause (panel : Byte) (params : List Byte)
  /-- RESTART (R172). The command is answered QUEUED, sets RESTART pending and starts the MSU
  drain. -/
  | restart (panel : Byte) (params : List Byte)
  /-- MS_STEP (R1). At each tick the TBU's tick count advances, wrapping to 0 after its highest
  value. -/
  | msStep
  /-- POWER_LOSS (R153). Power fails or the RESET line is driven low. -/
  | powerLoss
deriving DecidableEq, Repr

end Sys2Proof
end

