-- ==== Sys2Proof/Machine/Bits.lean ====
section
/-! DEFINITION. Helpers over fixed arrays, ordered visits, bits, bytes and the CRC of the
envelope. -/

namespace Sys2Proof.Machine

/-! ## Fixed arrays -/

/-- Element `i` of a fixed array, `d` beyond its end. -/
def nth {α : Type} {n : Nat} (v : Vector α n) (i : Nat) (d : α) : α :=
  if h : i < n then v[i] else d

/-- The array with element `i` replaced; unchanged beyond its end. -/
def put {α : Type} {n : Nat} (v : Vector α n) (i : Nat) (x : α) : Vector α n :=
  if h : i < n then v.set i x h else v

/-- The array with every element taken through `f`. -/
def mapV {α β : Type} {n : Nat} (f : α → β) (v : Vector α n) : Vector β n :=
  ⟨⟨v.toArray.toList.map f⟩, by simp⟩

/-- The array whose element `i` is `f i`. -/
def tabulate {α : Type} (n : Nat) (f : Nat → α) : Vector α n :=
  ⟨⟨(List.range n).map f⟩, by simp⟩

/-! ## Visits

A unit's work on an event is a function from the unit's state to its new state and the messages it
sends, in order. -/

/-- Nothing changes and nothing is sent. -/
def quiet {σ μ : Type} (s : σ) : σ × List μ := (s, [])

/-- First `f`, then `g`, with the messages in that order. -/
def andThen {σ μ : Type} (f g : σ → σ × List μ) (s : σ) : σ × List μ :=
  let a := f s
  let b := g a.1
  (b.1, a.2 ++ b.2)

/-- `f` on each item in order, with the messages in that order. -/
def visit {ι σ μ : Type} : List ι → (ι → σ → σ × List μ) → σ → σ × List μ
  | [], _, s => (s, [])
  | i :: is, f, s =>
    let a := f i s
    let b := visit is f a.1
    (b.1, a.2 ++ b.2)

/-! ## Bits and bytes -/

/-- Byte `i` of a list as a number, 0 beyond its end. -/
def byteAt (bs : List Byte) (i : Nat) : Nat := (bs.getD i 0).toNat

/-- The two-byte number at offset `i`, high byte first (chapter 11). -/
def wordAt (bs : List Byte) (i : Nat) : Nat := 256 * byteAt bs i + byteAt bs (i + 1)

/-- A number as one byte. -/
def toByte (n : Nat) : Byte := BitVec.ofNat 8 n

/-- A number as two bytes, high byte first (chapter 11). -/
def wordBytes (n : Nat) : List Byte := [toByte (n / 256), toByte n]

/-- Bit `i` of a run of bytes: bit (i mod 8) of byte (i div 8) (R177, R180, R181). -/
def bitAt (bs : List Byte) (i : Nat) : Bool := (bs.getD (i / 8) 0).getLsbD (i % 8)

/-- The eight bits from bit `8 * j` of `f` as one byte. -/
def packByte (f : Nat → Bool) (j : Nat) : Byte :=
  (List.range 8).foldl (fun b k => if f (8 * j + k) then b ||| (1#8 <<< k) else b) 0#8

/-- `n` bytes that hold the bits of `f`, laid out as `bitAt` reads them. -/
def packBits (n : Nat) (f : Nat → Bool) : List Byte := (List.range n).map (packByte f)

/-- The first `n` bytes, with zero bytes where the list is shorter. -/
def padTo (n : Nat) (bs : List Byte) : List Byte := (List.range n).map (fun i => bs.getD i 0)

/-! ## The CRC (R178) -/

/-- Step 3 of R178: one data bit shifted into the register. -/
def crcBit (r : Crc) (bit : Bool) : Crc :=
  let shifted := r <<< 1
  if r.getLsbD 15 != bit then shifted ^^^ 0x1021#16 else shifted

/-- One byte shifted into the register, most significant bit first. -/
def crcByte (r : Crc) (b : Byte) : Crc :=
  [7, 6, 5, 4, 3, 2, 1, 0].foldl (fun r k => crcBit r (b.getLsbD k)) r

/-- The CRC of a run of bytes (R178): the register starts at all ones and is not inverted. -/
def crc (bs : List Byte) : Crc := bs.foldl crcByte 0xFFFF#16

/-- The CRC of a frame (R178). Which of kind, address and length it covers beside the payload is
left free (assumption 1). -/
def frameCrc (kind address length : Byte) (payload : List Byte) : Crc :=
  if Config.crcSkipsAddressAndLength then crc (kind :: payload)
  else crc (kind :: address :: length :: payload)

/-- The CRC as sent, high byte first (R177). -/
def crcBytes (c : Crc) : List Byte := wordBytes c.toNat

/-- The bytes of a frame after its mark (R177). -/
def frameBytes (kind address : Byte) (payload : List Byte) : List Byte :=
  let length := toByte payload.length
  kind :: address :: length :: (payload ++ crcBytes (frameCrc kind address length payload))

/-- The frame mark (R177). -/
def frameMark : Byte := 0xA5

/-! ## The kind codes (R177) -/

def kindScan : Byte := 0x01
def kindCommand : Byte := 0x02
def kindReply : Byte := 0x81
def kindTabDrive : Byte := 0x82
def kindBoard : Byte := 0xC1

end Sys2Proof.Machine
end

