-- ==== Sys2Proof/Decode.lean ====
section
/-! DEFINITION. From the bytes of an inbound frame to the command of the opcode table it is (R166,
R169 step 1, R179), the frame that carries a command, and the host's table-word reading: no row of
the table gives bits, so no word spells a command. -/

namespace Sys2Proof

open Machine

/-- The command of a payload (R179): its first byte is the identifier. CUE and SET REITERATION have
one row of the table for each action or kind byte (R180); a byte that names none of them goes with
the first row, whose rule refuses it with RANGE. -/
def commandOf (panel : Byte) (payload : List Byte) : Instr :=
  match payload with
  | [] => .unknownCommand panel []
  | id :: ps =>
    match id.toNat with
    | 0x01 => .loadEntry panel ps
    | 0x02 => .readEntry panel ps
    | 0x03 => .fillEntries panel ps
    | 0x04 => .searchReferences panel ps
    | 0x05 => .commitTables panel ps
    | 0x06 => .copyLevel panel ps
    | 0x10 => .capture panel ps
    | 0x11 => .recall panel ps
    | 0x12 => .cancel panel ps
    | 0x13 => .pop panel ps
    | 0x14 => .setStops panel ps
    | 0x15 => .selectLevel panel ps
    | 0x16 => .lockLevel panel ps
    | 0x17 => .unlockLevel panel ps
    | 0x18 => .clearTabFault panel ps
    | 0x20 =>
      if byteAt ps 4 = 1 then .cueHoldOn panel ps
      else if byteAt ps 4 = 2 then .cueHoldOff panel ps
      else .cueTrigger panel ps
    | 0x21 => if byteAt ps 0 = 1 then .setReiterationTrap panel ps else .setReiteration panel ps
    | 0x22 => .setTremulant panel ps
    | 0x23 => .assignShoe panel ps
    | 0x30 => .soundPipe panel ps
    | 0x31 => .silencePipe panel ps
    | 0x32 => .silenceDirect panel ps
    | 0x33 => .mute panel ps
    | 0x34 => .unmute panel ps
    | 0x35 => .releaseAll panel ps
    | 0x40 => .readStatus panel ps
    | 0x41 => .acknowledge panel ps
    | 0x42 => .forceCause panel ps
    | 0x43 => .restart panel ps
    | _ => .unknownCommand panel payload

/-- The panel address and the payload of a command frame; none for a row that is no command
frame. -/
def payloadOf : Instr → Option (Byte × List Byte)
  | .unknownCommand p payload => some (p, payload)
  | .loadEntry p ps => some (p, 0x01 :: ps)
  | .readEntry p ps => some (p, 0x02 :: ps)
  | .fillEntries p ps => some (p, 0x03 :: ps)
  | .searchReferences p ps => some (p, 0x04 :: ps)
  | .commitTables p ps => some (p, 0x05 :: ps)
  | .copyLevel p ps => some (p, 0x06 :: ps)
  | .capture p ps => some (p, 0x10 :: ps)
  | .recall p ps => some (p, 0x11 :: ps)
  | .cancel p ps => some (p, 0x12 :: ps)
  | .pop p ps => some (p, 0x13 :: ps)
  | .setStops p ps => some (p, 0x14 :: ps)
  | .selectLevel p ps => some (p, 0x15 :: ps)
  | .lockLevel p ps => some (p, 0x16 :: ps)
  | .unlockLevel p ps => some (p, 0x17 :: ps)
  | .clearTabFault p ps => some (p, 0x18 :: ps)
  | .cueTrigger p ps => some (p, 0x20 :: ps)
  | .cueHoldOn p ps => some (p, 0x20 :: ps)
  | .cueHoldOff p ps => some (p, 0x20 :: ps)
  | .setReiteration p ps => some (p, 0x21 :: ps)
  | .setReiterationTrap p ps => some (p, 0x21 :: ps)
  | .setTremulant p ps => some (p, 0x22 :: ps)
  | .assignShoe p ps => some (p, 0x23 :: ps)
  | .soundPipe p ps => some (p, 0x30 :: ps)
  | .silencePipe p ps => some (p, 0x31 :: ps)
  | .silenceDirect p ps => some (p, 0x32 :: ps)
  | .mute p ps => some (p, 0x33 :: ps)
  | .unmute p ps => some (p, 0x34 :: ps)
  | .releaseAll p ps => some (p, 0x35 :: ps)
  | .readStatus p ps => some (p, 0x40 :: ps)
  | .acknowledge p ps => some (p, 0x41 :: ps)
  | .forceCause p ps => some (p, 0x42 :: ps)
  | .restart p ps => some (p, 0x43 :: ps)
  | .start | .startDone | .badFrame _ | .byteGap _ | .scanFrame _ _
  | .silenceTimerExpiry _
  | .pizzicatoExpiry | .pulseEnd _ _ | .restEnd _ _ | .reiteratorBeat _ | .trapPulseEnd _
  | .trapRestEnd _ | .trapBeat _ | .phaseEnd _ | .stepEnd _ | .tabDriveFrameComplete
  | .settleExpiry | .replyFrameComplete | .boardFrameComplete _ | .refreshSweep | .eraseEnd _
  | .programEnd _ | .verifyEnd | .startAfresh | .msStep | .powerLoss => none

/-- What the bytes after a frame mark are so far (R166). -/
inductive Reception where
  /-- The frame has not ended. -/
  | unfinished
  /-- The frame is discarded with FRAME ERROR. -/
  | bad
  /-- A good SCAN frame. -/
  | scan (address : Byte) (payload : List Byte)
  /-- A good COMMAND frame. -/
  | command (panel : Byte) (payload : List Byte)
  /-- The bytes run past the end of the frame; no frame is received as this. -/
  | overrun
deriving DecidableEq, Repr

/-- The judgement of R166 on the bytes received after a frame mark: the length byte, then the CRC,
then the kind. -/
def receive (bytes : List Byte) : Reception :=
  match bytes with
  | kind :: address :: length :: rest =>
    if 64 < length.toNat then (if rest = [] then .bad else .overrun)
    else if rest.length < length.toNat + 2 then .unfinished
    else if length.toNat + 2 < rest.length then .overrun
    else
      let payload := rest.take length.toNat
      if rest.drop length.toNat ≠ crcBytes (frameCrc kind address length payload) then .bad
      else if kind = kindScan then .scan address payload
      else if kind = kindCommand then .command address payload
      else .bad
  | _ => .unfinished

/-- The command that an inbound frame is; none for bytes that are no ended frame. -/
def decodeFrame (bytes : List Byte) : Option Instr :=
  match receive bytes with
  | .bad => some (.badFrame bytes)
  | .scan address payload => some (.scanFrame address payload)
  | .command panel payload => some (commandOf panel payload)
  | .unfinished => none
  | .overrun => none

/-- The bytes after the mark of the frame that carries a command; none for a row that is no inbound
frame. -/
def encodeFrame (i : Instr) : Option (List Byte) :=
  match i with
  | .badFrame bytes => some bytes
  | .scanFrame address payload => some (frameBytes kindScan address payload)
  | i => (payloadOf i).map (fun p => frameBytes kindCommand p.1 p.2)

/-- The command that a word of the opcode table spells. No row of the table gives bits, so none
does. -/
def decodeTableWord (_nbits _w : Nat) : Option Instr := none

end Sys2Proof
end

