-- ==== Sys2Proof/Machine/State.lean ====
section
/-! DEFINITION. The state of the ZV2240, unit by unit, as plain data, the two ways a step can stop,
and the state right after START of a new part (a blank store). -/

namespace Sys2Proof.Machine

/-! ## Ways to stop -/

/-- The machine's faults. -/
inductive Fault where
  /-- Raised by the ends of the write engine's erase, program and verify when the block in flight is
  not one of the array's 4096 (R140). No command forms such a block, so no run meets it. Safe. -/
  | noSuchBlock (block : Nat)
deriving DecidableEq, Repr

/-- The machine's refusals. -/
inductive Refusal where
  /-- An instruction that has no meaning yet, by its mnemonic. No arm raises it. Safe. -/
  | notModelled (mnemonic : String)
deriving DecidableEq, Repr

/-! ## Table entries -/

/-- An entry of a table with a valid field. An invalid entry keeps its bytes as loaded, since READ
ENTRY returns them (R24, R28, R64, R85, R103, R111, R158); a valid one is its checked fields. -/
inductive Slot (α : Type) where
  | invalid (raw : List Byte)
  | valid (entry : α)
deriving DecidableEq, Repr

/-- The entry, if it is valid. -/
def Slot.entry? {α : Type} : Slot α → Option α
  | .invalid _ => none
  | .valid e => some e

/-- What a scan board's contacts are (1.1). -/
inductive BoardKind where
  | keys | tabs | studs | pistons | shoes
deriving DecidableEq, Repr

/-- First or second row of contacts, and first or second touch of a stop (1.1, 2.2). -/
inductive Row where
  | first | second
deriving DecidableEq, Repr

/-- A Board Map entry (1.1). -/
structure BoardEntry where
  kind : BoardKind
  division : Nat
  row : Row
  first : Nat
  count : Nat
  debounce : Nat
  timeout : Nat
deriving DecidableEq, Repr

/-- Kinds of stop (2.2). -/
inductive StopKind where
  | rank | percussion | trap | tremulant
deriving DecidableEq, Repr

/-- Fold of a stop (2.2). -/
inductive Fold where
  | none | down | up | both
deriving DecidableEq, Repr

/-- Mode of a RANK or PERCUSSION stop (2.2). -/
inductive StopMode where
  | sustained | pizzicato | single | reiterate
deriving DecidableEq, Repr

/-- A Stop Table entry (2.2). A field absent for the kind holds its absent form: offset 0, FIRST,
keys 0, fold NONE, mode SUSTAINED, which R181 encodes as 0. -/
structure StopEntry where
  division : Nat
  kind : StopKind
  target : Nat
  offset : Int
  touch : Row
  lowKey : Nat
  highKey : Nat
  fold : Fold
  mode : StopMode
deriving DecidableEq, Repr

/-- A Rank Table entry (2.3). -/
structure RankEntry where
  lowest : Nat
  count : Nat
  chamber : Chamber
  firstOut : Nat
deriving DecidableEq, Repr

/-- How a percussion unit's damper is worked (4.1). -/
inductive DamperMode where
  | none | key | always
deriving DecidableEq, Repr

/-- A Percussion Table entry (4.1); `pulse` and `rest` in ms, `interval` in ms steps. -/
structure PercEntry where
  lowest : Nat
  count : Nat
  chamber : Chamber
  firstOut : Nat
  damper : Option Nat
  damperMode : DamperMode
  pulse : Nat
  rest : Nat
  interval : Nat
  budget : Nat
deriving DecidableEq, Repr

/-- Modes of a trap channel (5.1). -/
inductive TrapMode where
  | pulse | held | reiterate | counted
deriving DecidableEq, Repr

/-- A Trap Table entry (5.1); `pulse` and `rest` in ms, `interval` in ms steps, `repeats` the
repeat count N. -/
structure TrapEntry where
  chamber : Chamber
  output : Nat
  mode : TrapMode
  pulse : Nat
  rest : Nat
  interval : Nat
  repeats : Nat
deriving DecidableEq, Repr

/-- What drives a tremulant's phase generator (6.2). -/
inductive TremSource where
  | free
  | slave (master ratio : Nat)
deriving DecidableEq, Repr

/-- A Tremulant Table entry (6.2); the lengths in ms steps. -/
structure TremEntry where
  output : Nat
  onLength : Nat
  offLength : Nat
  source : TremSource
deriving DecidableEq, Repr

/-- The curve of an expression channel (6.7). -/
inductive Curve where
  | linear | tapered
deriving DecidableEq, Repr

/-- An Expression Table entry (6.7); `slew` in ms steps. -/
structure ExprEntry where
  shoe : Nat
  curve : Curve
  stages : Nat
  firstOut : Nat
  hysteresis : Nat
  slew : Nat
deriving DecidableEq, Repr

/-- A Piston Table entry (7.2). CANCEL's argument is a division, or none for ALL. -/
inductive PistonFn where
  | none
  | divisional (division memory : Nat)
  | general (memory : Nat)
  | cancel (division : Option Nat)
  | set | push | pop | next | previous | levelUp | levelDown
deriving DecidableEq, Repr

/-- An Output Map entry (9.2). -/
structure MapEntry where
  link : Chamber
  board : Nat
  point : Nat
  invert : Bool
deriving DecidableEq, Repr

/-- The working Settings (R152); the times in ms, one bit of `lockMask` for each level, one bit of
`enable` for each cause (R179), one bit of each Driver Board list for each board. -/
structure Settings where
  pizzicato : Nat
  refresh : Nat
  settle : Nat
  startUnmuted : Bool
  lockMask : BitVec 32
  enable : BitVec 8
  mainBoards : BitVec 32
  soloBoards : BitVec 32
deriving DecidableEq, Repr

/-! ## ISU (chapter 1) -/

/-- The state of a scan board address (1.2). -/
inductive BoardState where
  | unused | awaited | live | lost
deriving DecidableEq, Repr

/-- A contact: its accepted state, debounce candidate count and suppression flag (R8, R19). -/
structure Contact where
  accepted : Bool
  candidate : Nat
  suppressed : Bool
deriving DecidableEq, Repr

/-- A scan board address: its Board Map entry, board state, silence timer (none while stopped, else
the ms steps counted) and contact images. -/
structure Board where
  entry : Slot BoardEntry
  state : BoardState
  silence : Option Nat
  contacts : Vector Contact 64
deriving DecidableEq, Repr

/-- The touch state of a key (R9). -/
inductive Touch where
  | up | first | second
deriving DecidableEq, Repr

/-- The Input Scan Unit: the boards, the key touch states and the last emitted shoe positions. -/
structure Isu where
  boards : Vector Board 32
  touch : Vector (Vector Touch 61) 5
  shoes : Vector Nat 4
deriving DecidableEq, Repr

/-! ## UNE (chapters 2 and 3) -/

/-- A Pizzicato List entry (3.5). `reached` marks an entry whose expiry tick has been reached and
whose expiry event has not been taken yet (the model's own mark, assumption 5). -/
structure Pizz where
  stop : Nat
  key : Nat
  expiry : Tick
  reached : Bool
deriving DecidableEq, Repr

/-- The Unification Engine: the Stop and Rank Tables, the held-key and stop-on images, the demand
counts and direct flags, the Pizzicato List (oldest first) and the mute flags. -/
structure Une where
  stops : Vector (Slot StopEntry) 256
  ranks : Vector (Slot RankEntry) 32
  heldKeys : Vector (Vector Touch 61) 5
  stopOn : Vector Bool 256
  demand : Vector (Vector Nat 97) 32
  direct : Vector (Vector Bool 97) 32
  pizz : List Pizz
  muteMain : Bool
  muteSolo : Bool
deriving DecidableEq, Repr

/-! ## PTU (chapters 4 and 5) -/

/-- The state of a note engine (4.2) or of a trap channel, which is never QUEUED (5.3). -/
inductive NoteState where
  | idle | queued | striking | resting
deriving DecidableEq, Repr

/-- A note engine (R66). `timer` is the ticks left of the pulse in STRIKING, of the rest in
RESTING. -/
structure Note where
  state : NoteState
  timer : Nat
  pending : Bool
  reiteration : Nat
deriving DecidableEq, Repr

/-- A reiterator or trap beat counter (R75, R92). `due` marks a beat whose ms step has come and
whose strike requests have not been made yet (the model's own mark, assumption 5). -/
structure BeatCounter where
  running : Bool
  counter : Nat
  due : Bool
deriving DecidableEq, Repr

/-- A percussion unit (R66): its entry, notes, damper demand, Strike Queue (head first), count
striking, reiterator and the state of its damper output. -/
structure PercUnit where
  entry : Slot PercEntry
  notes : Vector Note 49
  damperDemand : Nat
  queue : List Nat
  striking : Nat
  reiterator : BeatCounter
  damperOn : Bool
deriving DecidableEq, Repr

/-- A trap channel (chapter 5): its entry, trap demand, cue-hold flag, channel state and its timer,
pending flag, beat counter, remaining count and the state of its output. -/
structure TrapChan where
  entry : Slot TrapEntry
  demand : Nat
  cueHold : Bool
  state : NoteState
  timer : Nat
  pending : Bool
  beat : BeatCounter
  remaining : Nat
  out : Bool
deriving DecidableEq, Repr

/-- The Percussion and Trap Unit: units, channels, Stud Table (none for NONE), held-stud image (true
for down) and the copy of the mute flags. -/
structure Ptu where
  units : Vector PercUnit 8
  traps : Vector TrapChan 32
  studs : Vector (Option Nat) 32
  heldStuds : Vector Bool 32
  muteMain : Bool
  muteSolo : Bool
deriving DecidableEq, Repr

/-! ## EFU (chapter 6) -/

/-- The gating state of a tremulant (R108). -/
inductive Gating where
  | idle | waiting | pulsing | ending
deriving DecidableEq, Repr

/-- A tremulant: its entry, phase generator (`phaseOn`, `counter` and `length`; for a SLAVE the
counter is its beat count and the length is not used), gating state, demand and output. -/
structure Trem where
  entry : Slot TremEntry
  phaseOn : Bool
  counter : Nat
  length : Nat
  gating : Gating
  demand : Nat
  out : Bool
deriving DecidableEq, Repr

/-- An expression channel: its entry, level L, accepted level A, target stage T, current stage C and
step timer (none while idle, else the ms steps left). -/
structure Expr where
  entry : Slot ExprEntry
  level : Nat
  accepted : Nat
  target : Nat
  current : Nat
  timer : Option Nat
deriving DecidableEq, Repr

/-- The Effects Unit. `shoes` are the last positions received. -/
structure Efu where
  trems : Vector Trem 12
  exprs : Vector Expr 2
  shoes : Vector Nat 4
deriving DecidableEq, Repr

/-! ## RGU (chapter 7) -/

/-- A tab drive: stop, value (true for ON) and attempt number (R132). -/
structure Drive where
  stop : Nat
  value : Bool
  attempt : Nat
deriving DecidableEq, Repr

/-- A Tab Drive Queue entry: a board and its pending drives in ascending stop order (R133). -/
structure DriveEntry where
  board : Nat
  drives : List Drive
deriving DecidableEq, Repr

/-- A Settle List entry (R135); no expiry while it waits for its retry to be sent. `reached` as for
the Pizzicato List. -/
structure Settle where
  stop : Nat
  value : Bool
  attempt : Nat
  expiry : Option Tick
  reached : Bool
deriving DecidableEq, Repr

/-- The Registration Unit. `position` is the sequencer position, `stack` the Registration Stack with
its top first. -/
structure Rgu where
  stopState : Vector Bool 256
  pistons : Vector PistonFn 64
  pressed : Vector Bool 64
  setHeld : Bool
  level : Nat
  position : Option Nat
  stack : List (Vector Bool 256)
  tabQueue : List DriveEntry
  settle : List Settle
  faulty : Vector Bool 256
deriving DecidableEq, Repr

/-! ## MSU (chapter 8) -/

/-- The origin of a write (R143). -/
inductive Origin where
  | capture | settings | bulk
deriving DecidableEq, Repr

/-- A Write Queue entry (R143): block number, 64-byte image and origin. -/
structure Write where
  block : Nat
  image : List Byte
  origin : Origin
deriving DecidableEq, Repr

/-- The states of the write engine (R144). SUSPENDED lasts only within a read (R147). -/
inductive Engine where
  | idle | erasing | programming | verifying | suspended
deriving DecidableEq, Repr

/-- The kind of the bulk job record (R148). -/
inductive JobKind where
  | none | commit | copy
deriving DecidableEq, Repr

/-- The outcome of the bulk job record (R148); none after START and RESTART (R155). -/
inductive JobOutcome where
  | none | running | complete | faulted | stopped
deriving DecidableEq, Repr

/-- The bulk job record (R148), with two marks its outcome rests on: a BULK entry of the job was
dropped, and the job has stopped forming (R150). -/
structure Job where
  kind : JobKind
  source : Nat
  dest : Nat
  next : Nat
  outcome : JobOutcome
  dropped : Bool
  stopForming : Bool
deriving DecidableEq, Repr

/-- The Memory Store Unit. `array` lists the bytes of the nonvolatile array that are not in the
erased state, by rising address. The head of `queue` is in flight while the engine is not IDLE.
`retried` marks an in-flight entry that has failed its verify once (R145). `pushback` counts the
0.1 ms delays that reads have put on the operation in progress (R147). -/
structure Msu where
  array : List Host.Cell
  queue : List Write
  engine : Engine
  retried : Bool
  pushback : Nat
  job : Job
  drain : Bool
deriving DecidableEq, Repr

/-! ## OMU (chapter 9) -/

/-- A board frame on a chamber link: the board and the 64 levels fixed at its start (R162). -/
structure BoardFrame where
  board : Nat
  levels : Vector Bool 64
deriving DecidableEq, Repr

/-- A chamber link: physical image, Board Frame Queue (head first) and transmitter. The transmitter
is SENDING while `line` holds a frame, else HELD while `held`, else IDLE. `held` with a frame on the
line is the frame that a RESTART lets finish (R164). -/
structure Link where
  image : Vector (Vector Bool 64) 32
  queue : List Nat
  held : Bool
  line : Option BoardFrame
deriving DecidableEq, Repr

/-- The Output Map Unit. `refresh` is the refresh timer: none while stopped, else the ms steps
left. -/
structure Omu where
  counts : Vector Nat 4096
  map : Vector (Slot MapEntry) 4096
  main : Link
  solo : Link
  refresh : Option Nat
deriving DecidableEq, Repr

/-! ## FIU and CMU (chapter 10) -/

/-- The results of a command (section 6 of the scope file, R179). -/
inductive Result where
  | done | queued | busy | range | conflict | locked | unknown | length
deriving DecidableEq, Repr

/-- One entry of a wait set (R167): the Tab Drive Queue entry of a board, and whether its frame is on
the line now. -/
structure WaitItem where
  board : Nat
  sent : Bool
deriving DecidableEq, Repr

/-- A reply (R167): the address and identifier it answers, its result and data, whether it is
ordered, and its wait set. -/
structure Reply where
  address : Byte
  id : Byte
  result : Result
  data : List Byte
  ordered : Bool
  waits : List WaitItem
deriving DecidableEq, Repr

/-- A frame of the return line: kind, address and payload (R177). -/
structure WireFrame where
  kind : Byte
  address : Byte
  payload : List Byte
deriving DecidableEq, Repr

/-- The return transmitter (R168): IDLE, or SENDING a reply (with the attention flag sampled at its
start), a tab-drive frame (with the first stop of its board), or the last frame begun before a start
afresh (R172), which completes without effect. -/
inductive ReturnLine where
  | idle
  | reply (r : Reply) (attention : Bool)
  | tab (e : DriveEntry) (firstStop : Nat)
  | stale (f : WireFrame)
deriving DecidableEq, Repr

/-- The receive state of the inbound line (R166): hunting, or partway through a frame with the bytes
taken since its mark and the ticks since the last byte, 0..4. -/
inductive Rx where
  | hunting
  | partway (bytes : List Byte) (quiet : Nat)
deriving DecidableEq, Repr

/-- The Frame Intake Unit. The reply at the head of `replies` stays there while its frame is on the
line (assumption 9). -/
structure Fiu where
  rx : Rx
  replies : List Reply
  line : ReturnLine
deriving DecidableEq, Repr

/-- The reason in CAPTURE REFUSED's detail field (R173). -/
inductive Refused where
  | locked | busy
deriving DecidableEq, Repr

/-- The eleven tables (R170). -/
inductive TableId where
  | board | stop | rank | perc | trap | stud | trem | expr | piston | settings | output
deriving DecidableEq, Repr

/-- A FILL ENTRIES that is being carried out (R171): the panel it answers, its table and entry, the
index of its next load, the entries done, and the loads that remain after the next one. -/
structure Fill where
  panel : Byte
  table : TableId
  entry : List Byte
  next : Nat
  done : Nat
  more : Nat
deriving DecidableEq, Repr

/-- The Command Unit (chapter 10): cause set and enable set with the bits of R179, the five detail
fields, the RESTART pending flag, whether the RESTART reply has been sent (R172), the started flag,
and the FILL ENTRIES in progress, if there is one (R171). -/
structure Cmu where
  causes : BitVec 8
  enable : BitVec 8
  lastLost : Option Nat
  lastBack : Option Nat
  lastTabFault : Option Nat
  lastRefusal : Option Refused
  lastFaulted : Option Nat
  restartPending : Bool
  restartSent : Bool
  started : Bool
  fill : Option Fill
deriving DecidableEq, Repr

/-! ## The whole part -/

/-- The state of the part. `stopped` is true while power is off or RESET is low (R153). `free` numbers
the open values taken so far (assumption 4). `pending` is the queue of commands that wait, and
`inbound` the bytes that stand on the inbound line, first to come first (assumption 19). -/
structure State where
  tick : Tick
  settings : Settings
  isu : Isu
  une : Une
  ptu : Ptu
  efu : Efu
  rgu : Rgu
  msu : Msu
  omu : Omu
  fiu : Fiu
  cmu : Cmu
  stopped : Bool
  free : Nat
  pending : List Instr
  inbound : List Byte
deriving DecidableEq, Repr

/-! ## Reset values -/

/-- An all-invalid entry of `n` bytes (assumption 6). -/
def blankSlot {α : Type} (n : Nat) : Slot α := .invalid (List.replicate n 0)

/-- The defaults of R152. -/
def Settings.defaults : Settings where
  pizzicato := 60
  refresh := 50
  settle := 120
  startUnmuted := false
  lockMask := 0
  enable := 0xFF
  mainBoards := 0
  soloBoards := 0

/-- A contact that is up, with no candidate and not suppressed (R21). -/
def Contact.rest : Contact := ⟨false, 0, false⟩

/-- An unused address (R21). -/
def Board.reset : Board := ⟨blankSlot 8, .unused, none, Vector.replicate 64 Contact.rest⟩

/-- R21. -/
def Isu.reset : Isu where
  boards := Vector.replicate 32 Board.reset
  touch := Vector.replicate 5 (Vector.replicate 61 .up)
  shoes := Vector.replicate 4 0

/-- R40 and R62, muted. -/
def Une.reset : Une where
  stops := Vector.replicate 256 (blankSlot 8)
  ranks := Vector.replicate 32 (blankSlot 8)
  heldKeys := Vector.replicate 5 (Vector.replicate 61 .up)
  stopOn := Vector.replicate 256 false
  demand := Vector.replicate 32 (Vector.replicate 97 0)
  direct := Vector.replicate 32 (Vector.replicate 97 false)
  pizz := []
  muteMain := true
  muteSolo := true

/-- An IDLE note with no demand (R83). -/
def Note.rest : Note := ⟨.idle, 0, false, 0⟩

/-- A stopped beat counter at 0 (R83, R100). -/
def BeatCounter.rest : BeatCounter := ⟨false, 0, false⟩

/-- R83. -/
def PercUnit.reset : PercUnit where
  entry := blankSlot 16
  notes := Vector.replicate 49 Note.rest
  damperDemand := 0
  queue := []
  striking := 0
  reiterator := BeatCounter.rest
  damperOn := false

/-- R100. -/
def TrapChan.reset : TrapChan where
  entry := blankSlot 8
  demand := 0
  cueHold := false
  state := .idle
  timer := 0
  pending := false
  beat := BeatCounter.rest
  remaining := 0
  out := false

/-- R83 and R100, muted. -/
def Ptu.reset : Ptu where
  units := Vector.replicate 8 PercUnit.reset
  traps := Vector.replicate 32 TrapChan.reset
  studs := Vector.replicate 32 none
  heldStuds := Vector.replicate 32 false
  muteMain := true
  muteSolo := true

/-- R120: no generator runs for an invalid tremulant. -/
def Trem.reset : Trem := ⟨blankSlot 8, false, 0, 0, .idle, 0, false⟩

/-- R120. -/
def Expr.reset : Expr := ⟨blankSlot 8, 0, 0, 0, 0, none⟩

/-- R120. -/
def Efu.reset : Efu where
  trems := Vector.replicate 12 Trem.reset
  exprs := Vector.replicate 2 Expr.reset
  shoes := Vector.replicate 4 0

/-- R139. -/
def Rgu.reset : Rgu where
  stopState := Vector.replicate 256 false
  pistons := Vector.replicate 64 .none
  pressed := Vector.replicate 64 false
  setHeld := false
  level := 0
  position := none
  stack := []
  tabQueue := []
  settle := []
  faulty := Vector.replicate 256 false

/-- R155: no job. -/
def Job.rest : Job := ⟨.none, 0, 0, 0, .none, false, false⟩

/-- R155, with the given array. -/
def Msu.reset (array : List Host.Cell) : Msu := ⟨array, [], .idle, false, 0, Job.rest, false⟩

/-- R164: queue empty, every point 0, transmitter HELD, with the given frame still on the line. -/
def Link.reset (line : Option BoardFrame) : Link :=
  ⟨Vector.replicate 32 (Vector.replicate 64 false), [], true, line⟩

/-- R164 and R165. -/
def Omu.reset (mainLine soloLine : Option BoardFrame) : Omu where
  counts := Vector.replicate 4096 0
  map := Vector.replicate 4096 (blankSlot 4)
  main := Link.reset mainLine
  solo := Link.reset soloLine
  refresh := none

/-- R176, with the given frame still on the return line. -/
def Fiu.reset (line : ReturnLine) : Fiu := ⟨.hunting, [], line⟩

/-- R176. -/
def Cmu.reset : Cmu := ⟨0, 0, none, none, none, none, none, false, false, false, none⟩

/-- The part right after START of a new part, whose store is wholly blank: every unit at its reset
value, every table invalid or NONE, Settings at their defaults (R151), START DONE not yet raised. -/
def State.reset : State where
  tick := 0
  settings := Settings.defaults
  isu := Isu.reset
  une := Une.reset
  ptu := Ptu.reset
  efu := Efu.reset
  rgu := Rgu.reset
  msu := Msu.reset []
  omu := Omu.reset none none
  fiu := Fiu.reset .idle
  cmu := Cmu.reset
  stopped := false
  free := 0
  pending := []
  inbound := []

end Sys2Proof.Machine
end

