-- ==== Sys2Proof/Machine/Intake.lean ====
section
/-! DEFINITION. The FIU's intake of the inbound line, a byte at a time (R166). -/

namespace Sys2Proof.Machine

/-- The ticks after which the next byte of an unfinished frame has failed to arrive (R166). -/
def gapTicks : Nat := 4

/-- R166: a tick without a byte. A gap that is complete stands until its event is taken
(assumption 5). -/
def Rx.tick : Rx → Rx
  | .hunting => .hunting
  | .partway bytes quiet => .partway bytes (min gapTicks (quiet + 1))

/-- R166: the bytes of an unfinished frame whose next byte has failed to arrive. -/
def Rx.gap : Rx → Option (List Byte)
  | .hunting => none
  | .partway bytes quiet => if gapTicks ≤ quiet then some bytes else none

/-- One tick of the FIU. -/
def Fiu.tick (f : Fiu) : Fiu := { f with rx := f.rx.tick }

/-- R166: the FIU takes a byte. While it is hunting, a frame mark starts a frame and every other byte is
discarded; the byte that ends a frame makes the command or event that the frame is, and the FIU hunts
again. -/
def Fiu.takeByte (b : Byte) (f : Fiu) : Fiu × Option Instr :=
  match f.rx with
  | .hunting => (if b = frameMark then { f with rx := .partway [] 0 } else f, none)
  | .partway bytes _ =>
    match decodeFrame (bytes ++ [b]) with
    | none => ({ f with rx := .partway (bytes ++ [b]) 0 }, none)
    | some i => ({ f with rx := .hunting }, some i)

end Sys2Proof.Machine
end

