-- ==== Sys2Proof/Machine/Operands.lean ====
section
/-! DEFINITION. The operand forms of chapter 11: codes, table identifiers, the encoding of every
table entry with the RANGE checks of its owner's rule, and the stop digits of SET STOPS. -/

namespace Sys2Proof.Machine

/-! ## Codes (R179, R181) -/

def Result.code : Result → Nat
  | .done => 0 | .queued => 1 | .busy => 2 | .range => 3
  | .conflict => 4 | .locked => 5 | .unknown => 6 | .length => 7

def chamberCode : Chamber → Nat
  | .main => 0 | .solo => 1

def chamberOf : Nat → Option Chamber
  | 0 => some .main | 1 => some .solo | _ => none

def BoardKind.code : BoardKind → Nat
  | .keys => 0 | .tabs => 1 | .studs => 2 | .pistons => 3 | .shoes => 4

def BoardKind.of : Nat → Option BoardKind
  | 0 => some .keys | 1 => some .tabs | 2 => some .studs | 3 => some .pistons | 4 => some .shoes
  | _ => none

def Row.code : Row → Nat
  | .first => 0 | .second => 1

def Row.of : Nat → Option Row
  | 0 => some .first | 1 => some .second | _ => none

def StopKind.code : StopKind → Nat
  | .rank => 0 | .percussion => 1 | .trap => 2 | .tremulant => 3

def StopKind.of : Nat → Option StopKind
  | 0 => some .rank | 1 => some .percussion | 2 => some .trap | 3 => some .tremulant | _ => none

def Fold.code : Fold → Nat
  | .none => 0 | .down => 1 | .up => 2 | .both => 3

def Fold.of : Nat → Option Fold
  | 0 => some .none | 1 => some .down | 2 => some .up | 3 => some .both | _ => Option.none

def StopMode.code : StopMode → Nat
  | .sustained => 0 | .pizzicato => 1 | .single => 2 | .reiterate => 3

def StopMode.of : Nat → Option StopMode
  | 0 => some .sustained | 1 => some .pizzicato | 2 => some .single | 3 => some .reiterate
  | _ => none

def DamperMode.code : DamperMode → Nat
  | .none => 0 | .key => 1 | .always => 2

def DamperMode.of : Nat → Option DamperMode
  | 0 => some .none | 1 => some .key | 2 => some .always | _ => Option.none

def TrapMode.code : TrapMode → Nat
  | .pulse => 0 | .held => 1 | .reiterate => 2 | .counted => 3

def TrapMode.of : Nat → Option TrapMode
  | 0 => some .pulse | 1 => some .held | 2 => some .reiterate | 3 => some .counted | _ => none

def Curve.code : Curve → Nat
  | .linear => 0 | .tapered => 1

def Curve.of : Nat → Option Curve
  | 0 => some .linear | 1 => some .tapered | _ => none

/-! ## Compasses and ranges -/

/-- The highest key of a division (R22). -/
def lastKey (division : Nat) : Nat := if division = 0 then 31 else 60

/-- The keys of a division, ascending (R22). -/
def keysOf (division : Nat) : List Nat := List.range (lastKey division + 1)

/-- The range of a stop's target number by kind (2.2). -/
def targetInRange (kind : StopKind) (target : Nat) : Bool :=
  match kind with
  | .rank => target < 32
  | .percussion => target < 8
  | .trap => target < 32
  | .tremulant => target < 12

/-- The number past the last thing a board kind numbers (R3). -/
def spanEnd (kind : BoardKind) (division : Nat) : Nat :=
  match kind with
  | .keys => lastKey division + 1
  | .tabs => 256
  | .studs => 32
  | .pistons => 64
  | .shoes => 4

/-! ## Entries (R181)

`parse…` answers none where the owner's rule refuses the entry with RANGE. -/

/-- A two's-complement byte as an integer. -/
def signedAt (bs : List Byte) (i : Nat) : Int := (bs.getD i 0).toInt

/-- Low and high halves of a byte. -/
def lowNibble (bs : List Byte) (i : Nat) : Nat := byteAt bs i % 16
def highNibble (bs : List Byte) (i : Nat) : Nat := byteAt bs i / 16

/-- Board Map entry, RANGE step of R3. The division lies in the range of the table in 1.1 whatever
the kind (assumption 13). -/
def parseBoard (bs : List Byte) : Option BoardEntry :=
  (BoardKind.of (byteAt bs 1)).bind fun kind =>
    let e : BoardEntry :=
      { kind := kind, division := byteAt bs 2 % 16,
        row := if byteAt bs 2 / 128 = 1 then .second else .first,
        first := byteAt bs 3, count := byteAt bs 4, debounce := byteAt bs 5,
        timeout := byteAt bs 6 }
    if e.division ≤ 4 ∧ 1 ≤ e.count ∧ e.count ≤ 64 ∧ 1 ≤ e.debounce ∧
        e.debounce ≤ 4 ∧ 10 ≤ e.timeout ∧ e.timeout ≤ 250 ∧
        e.first + e.count ≤ spanEnd kind e.division then some e else none

def BoardEntry.encode (e : BoardEntry) : List Byte :=
  [1, toByte e.kind.code, toByte (e.division + 128 * e.row.code), toByte e.first, toByte e.count,
    toByte e.debounce, toByte e.timeout, 0]

/-- The modes a stop of a kind may have (2.2). -/
def modeFits (kind : StopKind) (mode : StopMode) : Bool :=
  match kind, mode with
  | .rank, .sustained => true
  | .rank, .pizzicato => true
  | .percussion, .single => true
  | .percussion, .reiterate => true
  | _, _ => false

/-- Stop Table entry (R24). Fields absent for the kind are not checked and take their absent form
(R23). -/
def parseStop (bs : List Byte) : Option StopEntry :=
  let division := highNibble bs 0
  (StopKind.of (byteAt bs 1)).bind fun kind =>
    let target := byteAt bs 2
    if ¬ (division ≤ 4 ∧ targetInRange kind target) then none
    else
      let keyed (touch : Row) (e : StopEntry) : Option StopEntry :=
        if byteAt bs 7 ≤ lastKey division ∧ byteAt bs 6 ≤ byteAt bs 7 then
          some { e with touch := touch, lowKey := byteAt bs 6, highKey := byteAt bs 7 }
        else none
      let bare : StopEntry :=
        { division := division, kind := kind, target := target, offset := 0, touch := .first,
          lowKey := 0, highKey := 0, fold := .none, mode := .sustained }
      let pitched : Option StopEntry :=
        (Fold.of (highNibble bs 4)).bind fun fold =>
          (StopMode.of (byteAt bs 5)).bind fun mode =>
            if -24 ≤ signedAt bs 3 ∧ signedAt bs 3 ≤ 36 ∧ modeFits kind mode then
              some { bare with offset := signedAt bs 3, fold := fold, mode := mode }
            else none
      match kind with
      | .tremulant => some bare
      | .trap => (Row.of (lowNibble bs 4)).bind fun touch => keyed touch bare
      | .rank => (Row.of (lowNibble bs 4)).bind fun touch => pitched.bind (keyed touch)
      | .percussion => (Row.of (lowNibble bs 4)).bind fun touch => pitched.bind (keyed touch)

def StopEntry.encode (e : StopEntry) : List Byte :=
  [toByte (1 + 16 * e.division), toByte e.kind.code, toByte e.target, BitVec.ofInt 8 e.offset,
    toByte (e.touch.code + 16 * e.fold.code), toByte e.mode.code, toByte e.lowKey, toByte e.highKey]

/-- Rank Table entry (R28). -/
def parseRank (bs : List Byte) : Option RankEntry :=
  (chamberOf (byteAt bs 3)).bind fun chamber =>
    let e : RankEntry :=
      { lowest := byteAt bs 1, count := byteAt bs 2, chamber := chamber, firstOut := wordAt bs 4 }
    if e.lowest ≤ 127 ∧ 1 ≤ e.count ∧ e.count ≤ 97 ∧ e.lowest + e.count ≤ 128 ∧
        e.firstOut ≤ 4095 ∧ e.firstOut + e.count ≤ 4096 then some e else none

def RankEntry.encode (e : RankEntry) : List Byte :=
  [1, toByte e.lowest, toByte e.count, toByte (chamberCode e.chamber)] ++ wordBytes e.firstOut ++
    [0, 0]

/-- The number that stands for an absent damper output (R181). -/
def absentOutput : Nat := 0xFFFF

/-- Percussion Table entry (R64). -/
def parsePerc (bs : List Byte) : Option PercEntry :=
  (chamberOf (byteAt bs 3)).bind fun chamber =>
    (DamperMode.of (byteAt bs 8)).bind fun mode =>
      let d := wordAt bs 6
      let e : PercEntry :=
        { lowest := byteAt bs 1, count := byteAt bs 2, chamber := chamber, firstOut := wordAt bs 4,
          damper := if d = absentOutput then none else some d, damperMode := mode,
          pulse := byteAt bs 9, rest := byteAt bs 10, interval := byteAt bs 11,
          budget := byteAt bs 12 }
      if e.lowest ≤ 127 ∧ 1 ≤ e.count ∧ e.count ≤ 49 ∧ e.firstOut ≤ 4095 ∧
          (d ≤ 4095 ∨ d = absentOutput) ∧ 2 ≤ e.pulse ∧ e.pulse ≤ 60 ∧ 2 ≤ e.rest ∧ e.rest ≤ 60 ∧
          10 ≤ e.interval ∧ 1 ≤ e.budget ∧ e.budget ≤ 16 ∧ e.lowest + e.count ≤ 128 ∧
          e.firstOut + e.count ≤ 4096 ∧ (mode = .none ∨ d ≠ absentOutput) then some e else none

def PercEntry.encode (e : PercEntry) : List Byte :=
  [1, toByte e.lowest, toByte e.count, toByte (chamberCode e.chamber)] ++ wordBytes e.firstOut ++
    wordBytes (e.damper.getD absentOutput) ++
    [toByte e.damperMode.code, toByte e.pulse, toByte e.rest, toByte e.interval, toByte e.budget,
      0, 0, 0]

/-- Trap Table entry (R85). -/
def parseTrap (bs : List Byte) : Option TrapEntry :=
  (chamberOf (byteAt bs 1)).bind fun chamber =>
    (TrapMode.of (lowNibble bs 4)).bind fun mode =>
      let e : TrapEntry :=
        { chamber := chamber, output := wordAt bs 2, mode := mode, pulse := byteAt bs 5,
          rest := byteAt bs 6, interval := byteAt bs 7, repeats := highNibble bs 4 }
      if e.output ≤ 4095 ∧ 2 ≤ e.pulse ∧ e.pulse ≤ 60 ∧ 2 ≤ e.rest ∧ e.rest ≤ 60 ∧
          10 ≤ e.interval then some e else none

def TrapEntry.encode (e : TrapEntry) : List Byte :=
  [1, toByte (chamberCode e.chamber)] ++ wordBytes e.output ++
    [toByte (e.mode.code + 16 * e.repeats), toByte e.pulse, toByte e.rest, toByte e.interval]

/-- Stud Table entry (R97): the outer none is the RANGE refusal. -/
def parseStud (bs : List Byte) : Option (Option Nat) :=
  let c := byteAt bs 0
  if c = 0xFF then some none else if c < 32 then some (some c) else none

def encodeStud (c : Option Nat) : List Byte := [toByte (c.getD 0xFF), 0, 0, 0]

/-- Tremulant Table entry, RANGE step of R103. -/
def parseTrem (bs : List Byte) : Option TremEntry :=
  let source : Option TremSource :=
    match byteAt bs 5 with
    | 0 => some .free
    | 1 =>
      if byteAt bs 6 ≤ 11 ∧ 1 ≤ byteAt bs 7 ∧ byteAt bs 7 ≤ 8 then
        some (.slave (byteAt bs 6) (byteAt bs 7))
      else none
    | _ => none
  source.bind fun source =>
    let e : TremEntry :=
      { output := wordAt bs 1, onLength := byteAt bs 3, offLength := byteAt bs 4, source := source }
    if e.output ≤ 4095 ∧ 10 ≤ e.onLength ∧ 10 ≤ e.offLength then some e else none

def TremEntry.encode (e : TremEntry) : List Byte :=
  [1] ++ wordBytes e.output ++ [toByte e.onLength, toByte e.offLength] ++
    (match e.source with
      | .free => [0, 0, 0]
      | .slave master ratio => [1, toByte master, toByte ratio])

/-- Expression Table entry (R111). -/
def parseExpr (bs : List Byte) : Option ExprEntry :=
  (Curve.of (byteAt bs 2)).bind fun curve =>
    let e : ExprEntry :=
      { shoe := byteAt bs 1, curve := curve, stages := byteAt bs 3, firstOut := wordAt bs 4,
        hysteresis := byteAt bs 6, slew := byteAt bs 7 }
    if e.shoe ≤ 3 ∧ 1 ≤ e.stages ∧ e.stages ≤ 16 ∧ e.firstOut ≤ 4095 ∧
        e.firstOut + e.stages ≤ 4096 ∧ e.hysteresis ≤ 7 then some e else none

def ExprEntry.encode (e : ExprEntry) : List Byte :=
  [1, toByte e.shoe, toByte e.curve.code, toByte e.stages] ++ wordBytes e.firstOut ++
    [toByte e.hysteresis, toByte e.slew]

/-- Piston Table entry (R123). -/
def parsePiston (bs : List Byte) : Option PistonFn :=
  let a := byteAt bs 1
  let b := byteAt bs 2
  match byteAt bs 0 with
  | 0 => some .none
  | 1 => if a ≤ 4 ∧ b ≤ 9 then some (.divisional a b) else none
  | 2 => if a ≤ 19 then some (.general a) else none
  | 3 => if a = 0xFF then some (.cancel none) else if a ≤ 4 then some (.cancel (some a)) else none
  | 4 => some .set
  | 5 => some .push
  | 6 => some .pop
  | 7 => some .next
  | 8 => some .previous
  | 9 => some .levelUp
  | 10 => some .levelDown
  | _ => none

def PistonFn.encode : PistonFn → List Byte
  | .none => [0, 0, 0, 0]
  | .divisional d m => [1, toByte d, toByte m, 0]
  | .general m => [2, toByte m, 0, 0]
  | .cancel d => [3, toByte (d.getD 0xFF), 0, 0]
  | .set => [4, 0, 0, 0]
  | .push => [5, 0, 0, 0]
  | .pop => [6, 0, 0, 0]
  | .next => [7, 0, 0, 0]
  | .previous => [8, 0, 0, 0]
  | .levelUp => [9, 0, 0, 0]
  | .levelDown => [10, 0, 0, 0]

/-- Four bytes as 32 flags, flag l at bit (l mod 8) of byte i + (l div 8) (R181). -/
def flagsAt (bs : List Byte) (i : Nat) : BitVec 32 :=
  (bs.getD (i + 3) 0 ++ bs.getD (i + 2) 0 ++ bs.getD (i + 1) 0 ++ bs.getD i 0 : BitVec 32)

def flagBytes (f : BitVec 32) : List Byte :=
  [f.extractLsb' 0 8, f.extractLsb' 8 8, f.extractLsb' 16 8, f.extractLsb' 24 8]

/-- Settings (R152, R170). -/
def parseSettings (bs : List Byte) : Option Settings :=
  let e : Settings :=
    { pizzicato := byteAt bs 0, refresh := byteAt bs 1, settle := byteAt bs 2,
      startUnmuted := byteAt bs 3 == 1, lockMask := flagsAt bs 4, enable := bs.getD 8 0,
      mainBoards := flagsAt bs 12, soloBoards := flagsAt bs 16 }
  if 20 ≤ e.pizzicato ∧ e.pizzicato ≤ 250 ∧ 10 ≤ e.refresh ∧ e.refresh ≤ 250 ∧ 20 ≤ e.settle ∧
      e.settle ≤ 250 ∧ byteAt bs 3 ≤ 1 then some e else none

def Settings.encode (e : Settings) : List Byte :=
  [toByte e.pizzicato, toByte e.refresh, toByte e.settle, if e.startUnmuted then 1 else 0] ++
    flagBytes e.lockMask ++ [e.enable, 0, 0, 0] ++ flagBytes e.mainBoards ++ flagBytes e.soloBoards

/-- Output Map entry, RANGE step of R158. -/
def parseMap (bs : List Byte) : Option MapEntry :=
  (chamberOf (byteAt bs 1)).bind fun link =>
    let e : MapEntry :=
      { link := link, board := byteAt bs 2, point := byteAt bs 3, invert := byteAt bs 0 / 2 % 2 == 1 }
    if e.board ≤ 31 ∧ e.point ≤ 63 then some e else none

def MapEntry.encode (e : MapEntry) : List Byte :=
  [if e.invert then 3 else 1, toByte (chamberCode e.link), toByte e.board, toByte e.point]

/-! ## Slots -/

/-- The bytes with the bits that no field holds at 0 (chapter 11: ignored on load, stored as 0). -/
def maskBytes (mask bs : List Byte) : List Byte :=
  (List.range mask.length).map (fun i => bs.getD i 0 &&& mask.getD i 0)

def boardMask : List Byte := [0x01, 0xFF, 0x8F, 0xFF, 0xFF, 0xFF, 0xFF, 0x00]
def stopMask : List Byte := [0xF1, 0xFF, 0xFF, 0xFF, 0xFF, 0xFF, 0xFF, 0xFF]
def rankMask : List Byte := [0x01, 0xFF, 0xFF, 0xFF, 0xFF, 0xFF, 0x00, 0x00]
def percMask : List Byte :=
  [0x01, 0xFF, 0xFF, 0xFF, 0xFF, 0xFF, 0xFF, 0xFF, 0xFF, 0xFF, 0xFF, 0xFF, 0xFF, 0x00, 0x00, 0x00]
def trapMask : List Byte := [0x01, 0xFF, 0xFF, 0xFF, 0xFF, 0xFF, 0xFF, 0xFF]
def tremMask : List Byte := [0x01, 0xFF, 0xFF, 0xFF, 0xFF, 0xFF, 0xFF, 0xFF]
def exprMask : List Byte := [0x01, 0xFF, 0xFF, 0xFF, 0xFF, 0xFF, 0xFF, 0xFF]
def mapMask : List Byte := [0x03, 0xFF, 0xFF, 0xFF]

/-- An entry as loaded: with valid = no it is taken without checks and its fields are kept; with
valid = yes it is checked, and none is a RANGE refusal. -/
def parseSlot {α : Type} (mask : List Byte) (parse : List Byte → Option α) (bs : List Byte) :
    Option (Slot α) :=
  if bitAt bs 0 then (parse bs).map .valid else some (.invalid (maskBytes mask bs))

/-- An entry as READ ENTRY returns it and a commit stores it. -/
def Slot.encode {α : Type} (enc : α → List Byte) : Slot α → List Byte
  | .invalid raw => raw
  | .valid e => enc e

/-! ## Tables (R141, R170, R179) -/

/-- Table identifiers (R179). -/
def TableId.code : TableId → Nat
  | .board => 0 | .stop => 1 | .rank => 2 | .perc => 3 | .trap => 4 | .stud => 5
  | .trem => 6 | .expr => 7 | .piston => 8 | .settings => 9 | .output => 10

def TableId.of : Nat → Option TableId
  | 0 => some .board | 1 => some .stop | 2 => some .rank | 3 => some .perc | 4 => some .trap
  | 5 => some .stud | 6 => some .trem | 7 => some .expr | 8 => some .piston | 9 => some .settings
  | 10 => some .output | _ => none

/-- Number of entries (R170). -/
def TableId.size : TableId → Nat
  | .board => 32 | .stop => 256 | .rank => 32 | .perc => 8 | .trap => 32 | .stud => 32
  | .trem => 12 | .expr => 2 | .piston => 64 | .settings => 1 | .output => 4096

/-- Entry size E (R181). -/
def TableId.entrySize : TableId → Nat
  | .board => 8 | .stop => 8 | .rank => 8 | .perc => 16 | .trap => 8 | .stud => 4
  | .trem => 8 | .expr => 8 | .piston => 4 | .settings => 20 | .output => 4

/-- Entries in one store block (R141). -/
def TableId.perBlock : TableId → Nat
  | .board => 7 | .stop => 7 | .rank => 7 | .perc => 3 | .trap => 7 | .stud => 15
  | .trem => 7 | .expr => 7 | .piston => 15 | .settings => 1 | .output => 15

/-- Store blocks of the table (R141). -/
def TableId.blocks : TableId → Nat
  | .board => 5 | .stop => 37 | .rank => 5 | .perc => 3 | .trap => 5 | .stud => 3
  | .trem => 2 | .expr => 1 | .piston => 5 | .settings => 1 | .output => 274

/-- First store block of the table (R141). -/
def TableId.firstBlock : TableId → Nat
  | .board => 3072 | .stop => 3077 | .rank => 3114 | .perc => 3119 | .trap => 3122
  | .trem => 3127 | .expr => 3129 | .piston => 3130 | .stud => 3135 | .settings => 3138
  | .output => 3139

/-- The tables in region order (R141). -/
def TableId.regionOrder : List TableId :=
  [.board, .stop, .rank, .perc, .trap, .trem, .expr, .piston, .stud, .settings, .output]

/-- The table whose stored copy holds a block of the configuration region (R141). -/
def tableOfBlock (block : Nat) : Option TableId :=
  TableId.regionOrder.find? (fun t => t.firstBlock ≤ block && block < t.firstBlock + t.blocks)

/-! ## SET STOPS (R180) -/

/-- The digit of a stop: 0 for neither set, 1 for the on-set, 2 for the off-set. -/
def stopDigit (ps : List Byte) (stop : Nat) : Nat := byteAt ps (stop / 5) / 3 ^ (stop % 5) % 3

/-- Every byte names five digits, and no digit names a stop above 255. -/
def stopDigitsOk (ps : List Byte) : Bool :=
  (List.range 52).all (fun j => byteAt ps j ≤ 242) && byteAt ps 51 ≤ 2

/-- The state SET STOPS asks of a stop, if it is in either set. -/
def stopOrder (ps : List Byte) (stop : Nat) : Option Bool :=
  match stopDigit ps stop with
  | 1 => some true
  | 2 => some false
  | _ => none

end Sys2Proof.Machine
end

