-- ==== Sys2Proof/Machine/Flags.lean ====
section
/-! DEFINITION. The attention causes, their detail fields and the ATTENTION line (R173, R174), and the
status flags of READ STATUS (R180). -/

namespace Sys2Proof.Machine

/-- The raising of an attention cause, with what its detail field is given (R173). -/
inductive Raise where
  | boardLost (board : Nat)
  | boardBack (board : Nat)
  | frameError
  | tabFault (stop : Nat)
  | captureRefused (reason : Refused)
  | storeFault (block : Nat)
  | jobDone
  | startDone
deriving DecidableEq, Repr

/-- The bit of a cause in a cause set (R179). -/
def Raise.bit : Raise → Nat
  | .boardLost _ => 0
  | .boardBack _ => 1
  | .frameError => 2
  | .tabFault _ => 3
  | .captureRefused _ => 4
  | .storeFault _ => 5
  | .jobDone => 6
  | .startDone => 7

/-- The detail fields after a raise: the cause's own field is written, present or not (R173). -/
def Cmu.writeDetail (r : Raise) (c : Cmu) : Cmu :=
  match r with
  | .boardLost b => { c with lastLost := some b }
  | .boardBack b => { c with lastBack := some b }
  | .tabFault st => { c with lastTabFault := some st }
  | .captureRefused reason => { c with lastRefusal := some reason }
  | .storeFault b => { c with lastFaulted := some b }
  | .frameError => c
  | .jobDone => c
  | .startDone => c

/-- R173: a raise adds the cause to the set and writes its detail field. -/
def Cmu.raise (c : Cmu) (r : Raise) : Cmu :=
  { c.writeDetail r with causes := c.causes ||| (1#8 <<< r.bit) }

/-- R173: whether the ATTENTION line is asserted. -/
def Cmu.attention (c : Cmu) : Bool := c.causes &&& c.enable != 0

/-- R174: ACKNOWLEDGE removes the named causes. -/
def Cmu.acknowledge (set : Byte) (c : Cmu) : Cmu := { c with causes := c.causes &&& ~~~set }

/-- R174: FORCE CAUSE adds the named causes and writes no detail field. -/
def Cmu.force (set : Byte) (c : Cmu) : Cmu := { c with causes := c.causes ||| set }

/-! ## Codes of READ STATUS (R180) -/

def BoardState.code : BoardState → Nat
  | .unused => 0 | .awaited => 1 | .live => 2 | .lost => 3

def Engine.code : Engine → Nat
  | .idle => 0 | .erasing => 1 | .programming => 2 | .verifying => 3 | .suspended => 4

def JobKind.code : JobKind → Nat
  | .none => 0 | .commit => 1 | .copy => 2

def JobOutcome.code : JobOutcome → Nat
  | .none => 0 | .running => 1 | .complete => 2 | .faulted => 3 | .stopped => 4

/-- The reason of a refused capture as a result code (R179). -/
def Refused.code : Refused → Nat
  | .locked => Result.locked.code
  | .busy => Result.busy.code

/-- The sequencer position as READ STATUS shows it. -/
def positionByte (p : Option Nat) : Byte := toByte (p.getD 0xFF)

/-- Eight flags as a byte, flag k at bit k. -/
def flagByte (flags : List Bool) : Byte := packByte (fun k => flags.getD k false) 0

/-- The detail presence flags, from bit 0 on (R180). -/
def Cmu.presence (c : Cmu) : List Bool :=
  [c.lastLost.isSome, c.lastBack.isSome, c.lastTabFault.isSome, c.lastRefusal.isSome,
    c.lastFaulted.isSome]

end Sys2Proof.Machine
end

