-- ==== Sys2Proof/Machine/Ops.lean ====
section
/-! DEFINITION. The named operations every unit uses: requests on logical outputs and what the Output
Map Unit does with them (chapter 9), and one byte and one block of the nonvolatile array (8.1). -/

namespace Sys2Proof.Machine

/-! ## Requests (R156) -/

/-- A source's message to the OMU about a logical output. -/
inductive Req where
  | on (output : Nat)
  | off (output : Nat)
deriving DecidableEq, Repr

/-- Request-on where `b`, else request-off. -/
def request (b : Bool) (output : Nat) : Req := if b then .on output else .off output

/-! ## Chamber links (R160 to R163) -/

/-- The levels of a board's 64 points. -/
def Link.levels (l : Link) (board : Nat) : Vector Bool 64 :=
  nth l.image board (Vector.replicate 64 false)

/-- The level of a point. -/
def Link.level (l : Link) (board point : Nat) : Bool := nth (l.levels board) point false

/-- The image with one level replaced. -/
def Link.withLevel (board point : Nat) (v : Bool) (l : Link) : Link :=
  { l with image := put l.image board (put (l.levels board) point v) }

/-- R162, Start: a transmitter that is free takes the head of its queue and starts the board's frame
with the image as it stands; with the queue empty it stays IDLE. -/
def Link.startFrame (l : Link) : Link :=
  if l.held || l.line.isSome then l
  else
    match l.queue with
    | [] => l
    | b :: rest => { l with queue := rest, line := some ⟨b, l.levels b⟩ }

/-- R161: a board joins the tail unless it is in the queue; an IDLE transmitter then starts. -/
def Link.append (board : Nat) (l : Link) : Link :=
  if board ∈ l.queue then l else Link.startFrame { l with queue := l.queue ++ [board] }

/-- R160: a point takes a level, and a change appends its board. -/
def Link.setLevel (board point : Nat) (v : Bool) (l : Link) : Link :=
  if l.level board point = v then l else (l.withLevel board point v).append board

/-- R162: the frame on the line ends, and the next starts if one waits. A frame let finish by a
RESTART leaves the transmitter HELD (R164). -/
def Link.complete (l : Link) : Link := Link.startFrame { l with line := none }

/-- R162: the transmitter leaves HELD. -/
def Link.release (l : Link) : Link := Link.startFrame { l with held := false }

/-- R163: the present boards not in the queue join it, ascending. -/
def Link.sweep (present : BitVec 32) (l : Link) : Link :=
  (List.range 32).foldl (fun l b => if present.getLsbD b then l.append b else l) l

/-! ## The Output Map Unit -/

/-- A link by name. -/
def Omu.link (m : Omu) : Chamber → Link
  | .main => m.main
  | .solo => m.solo

/-- The unit with a link replaced. -/
def Omu.withLink (c : Chamber) (l : Link) (m : Omu) : Omu :=
  match c with
  | .main => { m with main := l }
  | .solo => { m with solo := l }

/-- The request count of an output (R157). -/
def Omu.count (m : Omu) (o : Nat) : Nat := nth m.counts o 0

/-- The Output Map entry of an output. -/
def Omu.entry (m : Omu) (o : Nat) : Slot MapEntry := nth m.map o (blankSlot 4)

/-- R157: the output has turned on or off, and its point, if it has one, takes the level
on XOR invert (R160). -/
def Omu.drive (o : Nat) (on : Bool) (m : Omu) : Omu :=
  match m.entry o with
  | .invalid _ => m
  | .valid e => m.withLink e.link ((m.link e.link).setLevel e.board e.point (on != e.invert))

/-- R157: a request moves the count; a pass 0→1 or 1→0 turns the output on or off. -/
def Omu.take (m : Omu) (r : Req) : Omu :=
  match r with
  | .on o =>
    let m' := { m with counts := put m.counts o (m.count o + 1) }
    if m.count o = 0 then m'.drive o true else m'
  | .off o =>
    let m' := { m with counts := put m.counts o (m.count o - 1) }
    if m.count o = 1 then m'.drive o false else m'

/-- A run of requests in order. -/
def Omu.takeAll (rs : List Req) (m : Omu) : Omu := rs.foldl Omu.take m

/-- The place and the level of a mapped output: link, board, point. -/
def MapEntry.place (e : MapEntry) : Chamber × Nat × Nat := (e.link, e.board, e.point)

/-- The level of a place. -/
def Omu.levelAt (m : Omu) (p : Chamber × Nat × Nat) : Bool := (m.link p.1).level p.2.1 p.2.2

/-- A level set with nothing queued, as steps 1 and 3 of R159 do. -/
def Omu.withLevelAt (p : Chamber × Nat × Nat) (v : Bool) (m : Omu) : Omu :=
  m.withLink p.1 ((m.link p.1).withLevel p.2.1 p.2.2 v)

/-- A board joins its link's queue. -/
def Omu.appendBoard (c : Chamber) (board : Nat) (m : Omu) : Omu :=
  m.withLink c ((m.link c).append board)

/-- R159: an Output Map load of output `o` that is taken. -/
def Omu.loadEntry (o : Nat) (new : Slot MapEntry) (m : Omu) : Omu :=
  let old := (m.entry o).entry?.map MapEntry.place
  let next := new.entry?.map MapEntry.place
  let m1 := match old with
    | some p => m.withLevelAt p false
    | none => m
  let m2 := { m1 with map := put m1.map o new }
  let m3 := match new with
    | .valid e => m2.withLevelAt e.place (decide (0 < m.count o) != e.invert)
    | .invalid _ => m2
  let changed (p : Chamber × Nat × Nat) : Bool := m3.levelAt p != m.levelAt p
  let m4 := match old with
    | some p => if changed p then m3.appendBoard p.1 p.2.1 else m3
    | none => m3
  match next with
  | some p => if changed p && old != some p then m4.appendBoard p.1 p.2.1 else m4
  | none => m4

/-- R158: another valid entry than that of output `o` holds the point of `e`. -/
def Omu.pointTaken (o : Nat) (e : MapEntry) (m : Omu) : Bool :=
  m.map.toList.zipIdx.any fun x =>
    x.2 != o && match x.1 with
      | .valid e' => e'.place == e.place
      | .invalid _ => false

/-- R163: a sweep of both links, and the timer restarted with the interval as it stands. -/
def Omu.sweep (st : Settings) (m : Omu) : Omu :=
  { m with main := m.main.sweep st.mainBoards, solo := m.solo.sweep st.soloBoards,
           refresh := some st.refresh }

/-- R163: the refresh timer counts a ms step; at 0 its expiry stands until it is taken. -/
def Omu.msStep (m : Omu) : Omu := { m with refresh := m.refresh.map (· - 1) }

/-! ## The nonvolatile array (8.1)

The array is its bytes that are not in the erased state, by rising address. -/

/-- The erased state of a byte (R140), and what an address with nothing listed holds. -/
def erasedByte : Byte := 0xFF

/-- Blocks of the array and bytes of a block (R140). -/
def arrayBlocks : Nat := 4096
def blockBytes : Nat := 64

/-- Addresses strictly rise from `from_`, lie in the array, and no listed byte is erased. -/
def Memory.wfFrom : Nat → List Host.Cell → Bool
  | _, [] => true
  | from_, (a, b) :: rest =>
    decide (from_ ≤ a) && decide (a < arrayBlocks * blockBytes) && decide (b ≠ erasedByte) &&
      Memory.wfFrom (a + 1) rest

/-- The canonical form of the array. -/
def Memory.wf (m : List Host.Cell) : Bool := Memory.wfFrom 0 m

/-- The byte at an address. -/
def Memory.read : List Host.Cell → Nat → Byte
  | [], _ => erasedByte
  | (a, b) :: rest, x => if a = x then b else if x < a then erasedByte else Memory.read rest x

/-- The array with the byte at `x` made `v`, in canonical form. -/
def Memory.write : List Host.Cell → Nat → Byte → List Host.Cell
  | [], x, v => if v = erasedByte then [] else [(x, v)]
  | (a, b) :: rest, x, v =>
    if x < a then (if v = erasedByte then (a, b) :: rest else (x, v) :: (a, b) :: rest)
    else if x = a then (if v = erasedByte then rest else (x, v) :: rest)
    else (a, b) :: Memory.write rest x v

/-- The byte at an offset of a block. -/
def blockByte (m : List Host.Cell) (block j : Nat) : Byte := Memory.read m (block * blockBytes + j)

/-- The 64 bytes of a block. -/
def readBlock (m : List Host.Cell) (block : Nat) : List Byte :=
  (List.range blockBytes).map (blockByte m block)

/-- A block with each byte `j` made `f j`. -/
def writeBlock (block : Nat) (f : Nat → Byte) (m : List Host.Cell) : List Host.Cell :=
  (List.range blockBytes).foldl (fun m j => Memory.write m (block * blockBytes + j) (f j)) m

/-- A byte that an erase or program leaves otherwise than R140 says, if one is named for `j`. -/
def flawAt (flaws : List (Nat × Byte)) (j : Nat) (sound : Byte) : Byte :=
  match flaws.find? (fun f => f.1 == j) with
  | some f => f.2
  | none => sound

/-- R140: erase makes every byte all ones. -/
def eraseBlock (block : Nat) (flaws : List (Nat × Byte)) (m : List Host.Cell) : List Host.Cell :=
  writeBlock block (fun j => flawAt flaws j erasedByte) m

/-- R140: program clears bits to match the image and sets none. -/
def programBlock (block : Nat) (image : List Byte) (flaws : List (Nat × Byte))
    (m : List Host.Cell) : List Host.Cell :=
  writeBlock block (fun j => flawAt flaws j (blockByte m block j &&& image.getD j erasedByte)) m

end Sys2Proof.Machine
end

