-- ==== Sys2Proof/Machine/Scan.lean ====
section
/-! DEFINITION. The ISU: boards, debounce, touch, loss and recovery, suppression (chapter 1). The unit's
work is a function to its new state and the events it sends, in order. -/

namespace Sys2Proof.Machine

/-- An event the ISU sends. -/
inductive IsuEvent where
  /-- R10, to the UNE. -/
  | key (division key : Nat) (old new : Touch)
  /-- R12, to the RGU. -/
  | tab (stop : Nat) (on : Bool)
  /-- R12, to the RGU. -/
  | piston (input : Nat) (press : Bool)
  /-- R12, to the PTU. -/
  | stud (stud : Nat) (down : Bool)
  /-- R13, to the EFU. -/
  | shoe (shoe position : Nat)
  /-- R16, to the RGU: the accepted states from the first stop on; FIRST CONTACT or RECOVERY. -/
  | image (board first : Nat) (states : List Bool) (firstContact : Bool)
  /-- R4, to the RGU: a valid TABS entry has been replaced. -/
  | replaced (board first count : Nat)
  /-- R173, to the CMU. -/
  | raise (cause : Raise)
deriving DecidableEq, Repr

/-! ## Reading the unit -/

/-- The board at an address. -/
def Isu.board (i : Isu) (b : Nat) : Board := nth i.boards b Board.reset

/-- The unit with a board replaced. -/
def Isu.withBoard (b : Nat) (x : Board) (i : Isu) : Isu := { i with boards := put i.boards b x }

/-- Contact `c` of a board. -/
def Board.contact (b : Board) (c : Nat) : Contact := nth b.contacts c Contact.rest

/-- The board with a contact replaced. -/
def Board.withContact (c : Nat) (x : Contact) (b : Board) : Board :=
  { b with contacts := put b.contacts c x }

/-- The touch state of a key (R9). -/
def Isu.touchOf (i : Isu) (d k : Nat) : Touch :=
  nth (nth i.touch d (Vector.replicate 61 .up)) k .up

/-- The last position emitted for a shoe (R13). -/
def Isu.shoe (i : Isu) (s : Nat) : Nat := nth i.shoes s 0

/-- R2: the entry covers number `n` of its kind's things. -/
def BoardEntry.covers (e : BoardEntry) (n : Nat) : Bool := e.first ≤ n ∧ n < e.first + e.count

/-- The contacts of an entry, ascending. -/
def BoardEntry.contacts (e : BoardEntry) : List Nat := List.range e.count

/-- R9: the accepted state of a row of a key: the contact of the LIVE board that covers it, up while
suppressed and where no board covers it. -/
def Isu.rowDown (i : Isu) (d k : Nat) (row : Row) : Bool :=
  (List.range 32).any fun b =>
    match (i.board b).entry with
    | .invalid _ => false
    | .valid e =>
      e.kind = .keys && e.division = d && e.row = row && e.covers k &&
        (i.board b).state = .live && ((i.board b).contact (k - e.first)).accepted &&
        !((i.board b).contact (k - e.first)).suppressed

/-- R9: the touch state that the two rows of a key give. -/
def touchFrom (firstDown secondDown : Bool) : Touch :=
  match firstDown, secondDown with
  | false, _ => .up
  | true, false => .first
  | true, true => .second

/-- R10: the one-step events of a change of touch state. -/
def touchSteps : Touch → Touch → List (Touch × Touch)
  | .up, .first => [(.up, .first)]
  | .up, .second => [(.up, .first), (.first, .second)]
  | .first, .second => [(.first, .second)]
  | .first, .up => [(.first, .up)]
  | .second, .first => [(.second, .first)]
  | .second, .up => [(.second, .first), (.first, .up)]
  | .up, .up => []
  | .first, .first => []
  | .second, .second => []

/-- R9, R10: a key's touch state taken afresh from its contacts, with the events of its change. -/
def Isu.judgeKey (d k : Nat) (i : Isu) : Isu × List IsuEvent :=
  let old := i.touchOf d k
  let new := touchFrom (i.rowDown d k .first) (i.rowDown d k .second)
  ({ i with touch := put i.touch d (put (nth i.touch d (Vector.replicate 61 .up)) k new) },
    (touchSteps old new).map (fun t => IsuEvent.key d k t.1 t.2))

/-- R10, R12: what an accepted change of contact `c` sends. -/
def Isu.sendChange (e : BoardEntry) (c : Nat) (down : Bool) (i : Isu) : Isu × List IsuEvent :=
  match e.kind with
  | .keys => i.judgeKey e.division (e.first + c)
  | .tabs => (i, [.tab (e.first + c) down])
  | .studs => (i, [.stud (e.first + c) down])
  | .pistons => (i, [.piston (e.first + c) down])
  | .shoes => quiet i

/-! ## Debounce (R8, R19) -/

/-- R8, R19: one contact's report in an accepted frame. -/
def Isu.report (b : Nat) (e : BoardEntry) (bits : Nat → Bool) (c : Nat) (i : Isu) :
    Isu × List IsuEvent :=
  let x := (i.board b).contact c
  let set (y : Contact) : Isu := i.withBoard b ((i.board b).withContact c y)
  if x.suppressed then
    quiet (if bits c then i else set { x with suppressed := false, candidate := 0 })
  else if bits c = x.accepted then quiet (set { x with candidate := 0 })
  else if e.debounce ≤ x.candidate + 1 then
    (set { x with accepted := bits c, candidate := 0 }).sendChange e c (bits c)
  else quiet (set { x with candidate := x.candidate + 1 })

/-- R8, R11: the covered contacts of an accepted frame, ascending. -/
def Isu.reports (b : Nat) (e : BoardEntry) (payload : List Byte) : Isu → Isu × List IsuEvent :=
  visit e.contacts (Isu.report b e (bitAt payload))

/-- R13: the positions of an accepted SHOES frame, ascending. -/
def Isu.positions (e : BoardEntry) (payload : List Byte) : Isu → Isu × List IsuEvent :=
  visit e.contacts fun c i =>
    let s := e.first + c
    let p := byteAt payload c
    if p = i.shoe s then quiet i else ({ i with shoes := put i.shoes s p }, [.shoe s p])

/-- R16: the tab states of the entering frame are taken at once and handed on as an image. -/
def Isu.takeImage (b : Nat) (e : BoardEntry) (payload : List Byte) (firstContact : Bool) (i : Isu) :
    Isu × List IsuEvent :=
  let board := e.contacts.foldl
    (fun x c => Board.withContact c { x.contact c with accepted := bitAt payload c, candidate := 0 } x)
    (i.board b)
  (i.withBoard b board, [.image b e.first (e.contacts.map (bitAt payload)) firstContact])

/-- R15: the image starts all-up; suppression flags are kept. -/
def Board.allUp (b : Board) : Board :=
  { b with contacts := mapV (fun x => { x with accepted := false, candidate := 0 }) b.contacts }

/-! ## Taking a frame (R5, R6, R7) -/

/-- R7 step 4: the payload length fits the entry's kind. -/
def BoardEntry.lengthFits (e : BoardEntry) (length : Nat) : Bool :=
  match e.kind with
  | .shoes => length = e.count
  | _ => length = 8

/-- R5, R15, R16: first contact or recovery. -/
def Isu.enter (b : Nat) (e : BoardEntry) (payload : List Byte) (firstContact : Bool) (i : Isu) :
    Isu × List IsuEvent :=
  let live := { i.board b with state := .live, silence := some 0 }
  match e.kind with
  | .tabs => Isu.takeImage b e payload firstContact (i.withBoard b live)
  | .shoes => Isu.positions e payload (i.withBoard b live)
  | _ => Isu.reports b e payload (i.withBoard b live.allUp)

/-- R5: an accepted frame from board `b`. -/
def Isu.accept (b : Nat) (e : BoardEntry) (payload : List Byte) (i : Isu) : Isu × List IsuEvent :=
  match (i.board b).state with
  | .live =>
    let i' := i.withBoard b { i.board b with silence := some 0 }
    if e.kind = .shoes then Isu.positions e payload i' else Isu.reports b e payload i'
  | .lost =>
    let r := Isu.enter b e payload false i
    (r.1, .raise (.boardBack b) :: r.2)
  | .awaited => Isu.enter b e payload true i
  | .unused => Isu.enter b e payload true i

/-- R7 steps 2 to 5: a scan frame with a good CRC, START DONE having been raised. -/
def Isu.frame (address : Nat) (payload : List Byte) (i : Isu) : Isu × List IsuEvent :=
  if 31 < address then (i, [.raise .frameError])
  else
    match (i.board address).entry with
    | .invalid _ => quiet i
    | .valid e =>
      if e.lengthFits payload.length then i.accept address e payload
      else if (i.board address).state = .live then
        (i.withBoard address { i.board address with silence := some 0 }, [.raise .frameError])
      else (i, [.raise .frameError])

/-! ## Forcing contacts up (R4, R14, R18) -/

/-- A contact that is accepted down is forced up, suppressed from now on where `suppress`, with the
events this gives. -/
def Isu.forceUp (b : Nat) (e : BoardEntry) (suppress : Bool) (c : Nat) (i : Isu) :
    Isu × List IsuEvent :=
  let x := (i.board b).contact c
  if x.accepted then
    (i.withBoard b ((i.board b).withContact c
      { x with accepted := false, suppressed := x.suppressed || suppress })).sendChange e c false
  else quiet i

/-- The covered contacts of a board forced up, ascending. -/
def Isu.forceAll (b : Nat) (e : BoardEntry) (suppress : Bool) : Isu → Isu × List IsuEvent :=
  visit e.contacts (Isu.forceUp b e suppress)

/-- Every candidate count of a board set to 0. -/
def Board.clearCandidates (b : Board) : Board :=
  { b with contacts := mapV (fun x => { x with candidate := 0 }) b.contacts }

/-- Kinds whose contacts are forced up on loss and on a load: KEYS, STUDS, PISTONS. -/
def BoardKind.forced : BoardKind → Bool
  | .keys => true
  | .studs => true
  | .pistons => true
  | .tabs => false
  | .shoes => false

/-- R14, R5: a board goes LOST, with BOARD LOST raised and its contacts degraded in the same step. -/
def Isu.lose (b : Nat) (e : BoardEntry) (i : Isu) : Isu × List IsuEvent :=
  let r := if e.kind.forced then Isu.forceAll b e false i else quiet i
  let x := r.1.board b
  let y := if e.kind.forced then x.clearCandidates else x
  (r.1.withBoard b { y with state := .lost, silence := none }, .raise (.boardLost b) :: r.2)

/-- R6: the silence timer of a LIVE board has counted to its timeout. -/
def Isu.silenceExpiry (b : Nat) (i : Isu) : Isu × List IsuEvent :=
  match (i.board b).entry with
  | .invalid _ => quiet i
  | .valid e =>
    if (i.board b).state = .live ∧ (i.board b).silence = some e.timeout then i.lose b e else quiet i

/-- R18: step 1 of RELEASE ALL. -/
def Isu.releaseAll : Isu → Isu × List IsuEvent :=
  visit (List.range 32) fun b i =>
    match (i.board b).entry with
    | .invalid _ => quiet i
    | .valid e =>
      if e.kind = .keys then
        let r := Isu.forceAll b e true i
        (r.1.withBoard b (r.1.board b).clearCandidates, r.2)
      else quiet i

/-! ## The Board Map (R3, R4) -/

/-- R3, CONFLICT: two entries cover one thing. -/
def BoardEntry.overlaps (e e' : BoardEntry) : Bool :=
  e.kind = e'.kind && (e.kind ≠ .keys || (e.division = e'.division && e.row = e'.row)) &&
    e.first < e'.first + e'.count && e'.first < e.first + e.count

/-- R3, CONFLICT step for an entry at address `b`. -/
def Isu.coverageConflict (b : Nat) (e : BoardEntry) (i : Isu) : Bool :=
  (List.range 32).any fun j =>
    j != b && match (i.board j).entry with
      | .invalid _ => false
      | .valid e' => e.overlaps e'

/-- R4: what the old entry was contributing is undone. -/
def Isu.undo (b : Nat) (i : Isu) : Isu × List IsuEvent :=
  match (i.board b).entry with
  | .invalid _ => quiet i
  | .valid e =>
    match e.kind with
    | .tabs => (i, [.replaced b e.first e.count])
    | .shoes => quiet i
    | _ => Isu.forceAll b e false i

/-- R4: a Board Map load that is taken. -/
def Isu.load (b : Nat) (new : Slot BoardEntry) : Isu → Isu × List IsuEvent :=
  andThen (Isu.undo b) fun i =>
    quiet (i.withBoard b
      { Board.reset with entry := new, state := if new.entry?.isSome then .awaited else .unused })

/-! ## Answers to the RGU (R17) -/

/-- The address and entry of the valid TABS entry that covers a stop. -/
def Isu.tabBoard (i : Isu) (stop : Nat) : Option (Nat × BoardEntry) :=
  (List.range 32).findSome? fun b =>
    match (i.board b).entry with
    | .invalid _ => none
    | .valid e => if e.kind = .tabs ∧ e.covers stop then some (b, e) else none

/-- R17: how a stop's tab stands; none for UNKNOWN. -/
def Isu.tabState (i : Isu) (stop : Nat) : Option Bool :=
  match i.tabBoard stop with
  | none => none
  | some (b, e) =>
    if (i.board b).state = .live ∨ (i.board b).state = .lost then
      some ((i.board b).contact (stop - e.first)).accepted
    else none

/-- R17, R132: the address of the LIVE board that covers a stop's tab. -/
def Isu.liveTabBoard (i : Isu) (stop : Nat) : Option Nat :=
  match i.tabBoard stop with
  | none => none
  | some (b, _) => if (i.board b).state = .live then some b else none

/-! ## Time (R6) -/

/-- One ms step of a board's silence timer; at its timeout its expiry stands until it is taken. -/
def Board.msStep (b : Board) : Board :=
  match b.entry, b.silence with
  | .valid e, some n => if n < e.timeout then { b with silence := some (n + 1) } else b
  | _, _ => b

/-- One ms step of the unit. -/
def Isu.msStep (i : Isu) : Isu := { i with boards := mapV Board.msStep i.boards }

end Sys2Proof.Machine
end

