-- ==== Sys2Proof/Machine/Registration.lean ====
section
/-! DEFINITION. The RGU: stop states, tab drives and their settling, the stack, pistons' own state
(chapter 7). The unit's work is a function to its new state and the messages it sends, in order; the
ISU is read as it stands (R17). -/

namespace Sys2Proof.Machine

/-- A message of the RGU. -/
inductive RguMsg where
  /-- A stop event, to the UNE (R121). -/
  | stop (stop : Nat) (on : Bool)
  /-- A board's entry has left the Tab Drive Queue by withdrawal, to the FIU's wait sets (R167). -/
  | gone (board : Nat)
  /-- A cause, to the CMU. -/
  | raise (cause : Raise)
deriving DecidableEq, Repr

/-! ## Reading the unit -/

/-- The state of a stop (R121). -/
def Rgu.isOn (r : Rgu) (s : Nat) : Bool := nth r.stopState s false

/-- The tab fault mark of a stop (R137). -/
def Rgu.isFaulty (r : Rgu) (s : Nat) : Bool := nth r.faulty s false

/-- A drive is pending for the stop (R133). -/
def Rgu.hasDrive (r : Rgu) (s : Nat) : Bool :=
  r.tabQueue.any (fun e => e.drives.any (fun d => d.stop == s))

/-- The Settle List entry of a stop. -/
def Rgu.settleOf (r : Rgu) (s : Nat) : Option Settle := r.settle.find? (fun x => x.stop == s)

/-! ## The Tab Drive Queue (R132, R133) -/

/-- A drive in its place by stop, in place of any drive of the same stop. -/
def insertDrive (d : Drive) : List Drive → List Drive
  | [] => [d]
  | x :: rest =>
    if d.stop < x.stop then d :: x :: rest
    else if d.stop = x.stop then d :: rest
    else x :: insertDrive d rest

/-- R133, Joining: the drive joins its board's entry, or a new entry at the tail. -/
def joinDrive (b : Nat) (d : Drive) : List DriveEntry → List DriveEntry
  | [] => [⟨b, [d]⟩]
  | e :: rest =>
    if e.board = b then { e with drives := insertDrive d e.drives } :: rest
    else e :: joinDrive b d rest

/-- R132: a drive is queued when a valid TABS entry covers the stop, its board is LIVE and the stop
has no tab fault mark. -/
def Rgu.makeDrive (i : Isu) (s : Nat) (value : Bool) (attempt : Nat) (r : Rgu) : Rgu :=
  match i.liveTabBoard s with
  | none => r
  | some b =>
    if r.isFaulty s then r else { r with tabQueue := joinDrive b ⟨s, value, attempt⟩ r.tabQueue }

/-- An entry without the pending drives that `out` names. -/
def DriveEntry.without (out : Drive → Bool) (e : DriveEntry) : DriveEntry :=
  { e with drives := e.drives.filter (fun d => !out d) }

/-- R133, Withdrawing: the pending drives that `out` names are withdrawn; an entry left with none
leaves the queue. -/
def Rgu.withdrawDrives (out : Drive → Bool) (r : Rgu) : Rgu × List RguMsg :=
  let thinned := r.tabQueue.map (DriveEntry.without out)
  ({ r with tabQueue := thinned.filter (fun e => !e.drives.isEmpty) },
    (thinned.filter (fun e => e.drives.isEmpty)).map (fun e => RguMsg.gone e.board))

/-! ## The Settle List (R134, R135) -/

/-- The ticks from now forward to an entry's expiry; none for an entry with no expiry (R1). -/
def Settle.distance (now : Tick) (x : Settle) : Option Nat :=
  if x.reached then some 0 else x.expiry.map (fun t => (t - now).toNat)

/-- `x` stands before a new entry `y`: an expiry no later than its, or `y` has none. -/
def Settle.before (now : Tick) (x y : Settle) : Bool :=
  match x.distance now, y.distance now with
  | _, none => true
  | none, some _ => false
  | some a, some b => a ≤ b

/-- R135: the entry in its place by expiry, after those of equal expiry. -/
def insertSettle (now : Tick) (y : Settle) : List Settle → List Settle
  | [] => [y]
  | x :: rest => if x.before now y then x :: insertSettle now y rest else y :: x :: rest

/-- The list without a stop's entry. -/
def Rgu.dropSettle (s : Nat) (r : Rgu) : Rgu :=
  { r with settle := r.settle.filter (fun x => x.stop != s) }

/-- A stop's entry, in place of any it has. -/
def Rgu.putSettle (now : Tick) (y : Settle) (r : Rgu) : Rgu :=
  { r.dropSettle y.stop with settle := insertSettle now y (r.dropSettle y.stop).settle }

/-- R1: the entries whose expiry is this tick are marked reached. -/
def Rgu.tick (now : Tick) (r : Rgu) : Rgu :=
  { r with settle := r.settle.map (fun x => { x with reached := x.reached || x.expiry == some now }) }

/-- R134: one drive of a tab-drive frame that has been sent; an entry it makes ends its settling at
`expiry`. The entry is made also for a stop that has been marked FAULTY while the frame was on the line, of
which R135 says that it has none: that R134's words come first there is the model's choice (assumption 43). -/
def Rgu.driveSent (i : Isu) (now expiry : Tick) (d : Drive) (r : Rgu) : Rgu :=
  if r.isOn d.stop = d.value then r.putSettle now ⟨d.stop, d.value, d.attempt, some expiry, false⟩
  else r.makeDrive i d.stop (r.isOn d.stop) 1

/-! ## Changes of stop state (R121) -/

/-- The unit with a stop's state replaced. -/
def Rgu.withStop (s : Nat) (v : Bool) (r : Rgu) : Rgu := { r with stopState := put r.stopState s v }

/-- R121: a stop is set by the part, with its stop event and, for `drives`, its tab drive. -/
def Rgu.setStop (i : Isu) (drives : Bool) (s : Nat) (v : Bool) (r : Rgu) : Rgu × List RguMsg :=
  if r.isOn s = v then quiet r
  else
    let r' := r.withStop s v
    (if drives then r'.makeDrive i s v 1 else r', [.stop s v])

/-- R121: stops set in ascending order, each as `order` says; with tab drives. -/
def Rgu.setStops (i : Isu) (order : Nat → Option Bool) : Rgu → Rgu × List RguMsg :=
  visit (List.range 256) fun s r =>
    match order s with
    | none => quiet r
    | some v => r.setStop i true s v

/-! ## Tab events, images and notices (R133, R135, R138) -/

/-- R135: a tab event. -/
def Rgu.tabEvent (s : Nat) (on : Bool) (r : Rgu) : Rgu × List RguMsg :=
  match r.settleOf s with
  | some x =>
    if x.value = on then
      Rgu.withdrawDrives (fun d => d.stop == s && d.attempt == 2) (r.dropSettle s)
    else quiet r
  | none =>
    if r.isOn s = on then quiet r
    else
      let a := Rgu.withdrawDrives (fun d => d.stop == s) (r.withStop s on)
      (a.1, .stop s on :: a.2)

/-- A stop of a span of `count` stops from `first`. -/
def inSpan (first count s : Nat) : Bool := first ≤ s ∧ s < first + count

/-- The list without the entries of a span of stops. -/
def Rgu.dropSettleSpan (first count : Nat) (r : Rgu) : Rgu :=
  { r with settle := r.settle.filter (fun x => !inSpan first count x.stop) }

/-- R138: a tab image, the accepted states of the stops from `first` on. -/
def Rgu.tabImage (i : Isu) (first : Nat) (states : List Bool) (firstContact : Bool) (r : Rgu) :
    Rgu × List RguMsg :=
  if firstContact then
    andThen (Rgu.withdrawDrives (fun d => inSpan first states.length d.stop))
      (fun r =>
        visit (List.range states.length)
          (fun k r => r.setStop i false (first + k) (states.getD k false))
          (r.dropSettleSpan first states.length))
      r
  else
    visit (List.range states.length)
      (fun k r =>
        if states.getD k false = r.isOn (first + k) then quiet r
        else quiet (r.makeDrive i (first + k) (r.isOn (first + k)) 1))
      r

/-- R133: the notice that a board's valid TABS entry has been replaced. -/
def Rgu.boardReplaced (b first count : Nat) (r : Rgu) : Rgu × List RguMsg :=
  let r' := r.dropSettleSpan first count
  ({ r' with tabQueue := r.tabQueue.filter (fun e => e.board != b) },
    (r.tabQueue.filter (fun e => e.board == b)).map (fun e => RguMsg.gone e.board))

/-! ## Settling (R136, R137) -/

/-- R136: an entry whose expiry has been reached, removed from the list by now. A stop may go FAULTY here
while a newer drive of it is on the line, since case 1 looks only at the Tab Drive Queue; what its frame's
completion then makes is the model's choice (assumption 43), and so is that the entry it makes is put back by
case 4 like any other, though R132 queues no drive for it. -/
def Rgu.settled (i : Isu) (now : Tick) (x : Settle) (r : Rgu) : Rgu × List RguMsg :=
  if r.hasDrive x.stop then quiet r
  else if i.liveTabBoard x.stop = none then quiet r
  else if i.tabState x.stop = some x.value then quiet r
  else if x.attempt = 1 then
    quiet (Rgu.makeDrive i x.stop x.value 2
      (r.putSettle now ⟨x.stop, x.value, 2, none, false⟩))
  else ({ r with faulty := put r.faulty x.stop true }, [.raise (.tabFault x.stop)])

/-- R136: the expiry of the head of the Settle List is taken. -/
def Rgu.settleExpiry (i : Isu) (now : Tick) (r : Rgu) : Rgu × List RguMsg :=
  match r.settle with
  | [] => quiet r
  | x :: rest => if x.reached then Rgu.settled i now x { r with settle := rest } else quiet r

/-- R137: CLEAR TAB FAULT. -/
def Rgu.clearFault (i : Isu) (s : Nat) (r : Rgu) : Rgu :=
  if r.isFaulty s then
    let r' := { r with faulty := put r.faulty s false }
    if i.tabState s = some (!r.isOn s) then r'.makeDrive i s (r.isOn s) 1 else r'
  else r

/-! ## Pistons, levels and the stack (R124, R125, R131) -/

/-- R124: the SET held flag taken afresh from the pressed image and the Piston Table. -/
def Rgu.judgeSet (r : Rgu) : Rgu :=
  { r with setHeld :=
      (List.range 64).any (fun p => nth r.pressed p false && nth r.pistons p .none == .set) }

/-- R124: the pressed image takes a piston event. -/
def Rgu.pressPiston (p : Nat) (press : Bool) (r : Rgu) : Rgu :=
  Rgu.judgeSet { r with pressed := put r.pressed p press }

/-- R123: a Piston Table load that is taken. -/
def Rgu.loadPiston (p : Nat) (fn : PistonFn) (r : Rgu) : Rgu :=
  Rgu.judgeSet { r with pistons := put r.pistons p fn }

/-- The Registration Stack's capacity (R131). -/
def stackCapacity : Nat := 4

/-- R131, PUSH: the stop state on top; a fifth record discards the bottom one. -/
def Rgu.push (r : Rgu) : Rgu := { r with stack := (r.stopState :: r.stack).take stackCapacity }

/-- R131, POP: the top record is removed and applied as a general recall. -/
def Rgu.pop (i : Isu) (r : Rgu) : Rgu × List RguMsg :=
  match r.stack with
  | [] => quiet r
  | top :: rest => Rgu.setStops i (fun s => some (nth top s false)) { r with stack := rest }

/-- R125: LEVEL UP and LEVEL DOWN, clamped. -/
def Rgu.levelUp (r : Rgu) : Rgu := { r with level := if r.level < 31 then r.level + 1 else r.level }
def Rgu.levelDown (r : Rgu) : Rgu := { r with level := r.level - 1 }

/-- R130: the general memory that NEXT or PREVIOUS recalls. -/
def sequencerStep (next : Bool) (position : Option Nat) : Option Nat :=
  match position, next with
  | none, true => some 0
  | none, false => none
  | some p, true => some (if p < 19 then p + 1 else p)
  | some p, false => some (p - 1)

end Sys2Proof.Machine
end

