-- ==== Sys2Proof/Machine/Store.lean ====
section
/-! DEFINITION. The MSU: blocks, reads, the Write Queue, the write engine and the bulk job
(chapter 8). -/

namespace Sys2Proof.Machine

/-! ## Blocks (R142, R182) -/

def markerRecord : Byte := 0x3C
def markerTable : Byte := 0x5A

/-- A blank image: the erased state of a block (R144). -/
def blankImage : List Byte := List.replicate blockBytes erasedByte

/-- The check byte: the sum of the payload bytes modulo 256 (R142). -/
def checkByte (payload : List Byte) : Byte := payload.foldl (· + ·) 0

/-- A block of a header and 60 payload bytes (R182). -/
def formBlock (marker : Byte) (second third : Nat) (payload : List Byte) : List Byte :=
  let body := padTo 60 payload
  marker :: toByte second :: toByte third :: checkByte body :: body

/-- The scope byte of a memory number: its division, or 5 for GENERAL (R125, R182). -/
def scopeOf (memory : Nat) : Nat := if memory < 50 then memory / 10 else 5

/-- Memories of one level (R125). -/
def memoriesPerLevel : Nat := 70

/-- The block of a memory (R125, R141). -/
def memoryBlock (level memory : Nat) : Nat := level * memoriesPerLevel + memory

/-- The end of the registration region and the start of the configuration region (R141). -/
def registrationEnd : Nat := 2240
def configStart : Nat := 3072
def configBlocks : Nat := 341

/-- A record of the given stops (R127, R142). -/
def formRecord (level memory : Nat) (stops : Nat → Bool) : List Byte :=
  formBlock markerRecord (scopeOf memory) level (packBits 32 stops)

/-- The state of a stop in a record's image (R182). -/
def recordBit (image : List Byte) (stop : Nat) : Bool := bitAt (image.drop 4) stop

/-- What a block is found to be (R142). -/
inductive Judgement where
  | blank
  | failing
  | good (image : List Byte)
deriving DecidableEq, Repr

/-- R142: the header of a block whose marker is valid fits the block's place. The Output Map has 274
blocks and the header one byte for a block's index, which holds it modulo 256 (assumption 11). -/
def headerFits (block : Nat) (image : List Byte) : Bool :=
  if block < registrationEnd then
    image.getD 0 0 == markerRecord && byteAt image 2 == block / memoriesPerLevel &&
      byteAt image 1 == scopeOf (block % memoriesPerLevel)
  else
    match tableOfBlock block with
    | none => false
    | some t =>
      image.getD 0 0 == markerTable && byteAt image 1 == t.code &&
        byteAt image 2 == (block - t.firstBlock) % 256

/-- R142: a block's image judged: blank, failing or good. -/
def judgeBlock (block : Nat) (image : List Byte) : Judgement :=
  if image.getD 0 0 ≠ markerRecord ∧ image.getD 0 0 ≠ markerTable then .blank
  else if image.getD 3 0 = checkByte (image.drop 4) ∧ headerFits block image then .good image
  else .failing

/-! ## Reads (R146, R147) -/

/-- The entry in flight (R143). -/
def Msu.inFlight (m : Msu) : Option Write := if m.engine = .idle then none else m.queue.head?

/-- The entries that wait (R143). -/
def Msu.waiting (m : Msu) : List Write := if m.engine = .idle then m.queue else m.queue.tail

/-- An image from the queue, answered as it is (R146). -/
def queueImage (image : List Byte) : Option (List Byte) :=
  if image = blankImage then none else some image

/-- R147: a read of the array puts off an operation in progress by 0.1 ms. -/
def Msu.suspend (m : Msu) : Msu :=
  if m.engine = .idle then m else { m with pushback := m.pushback + 1 }

/-- R146: a read of a block: the newest image waiting, then the image in flight, then the array. None
is blank. -/
def Msu.read (block : Nat) (m : Msu) : Option (List Byte) × Msu × List Raise :=
  match m.waiting.find? (fun w => w.block == block) with
  | some w => (queueImage w.image, m, [])
  | none =>
    match m.inFlight.filter (fun w => w.block == block) with
    | some w => (queueImage w.image, m, [])
    | none =>
      match judgeBlock block (readBlock m.array block) with
      | .blank => (none, m.suspend, [])
      | .failing => (none, m.suspend, [.storeFault block])
      | .good image => (some image, m.suspend, [])

/-! ## The Write Queue (R143) -/

/-- Capacity of the Write Queue, and of its BULK share (R143, R148). -/
def queueCapacity : Nat := 8
def bulkShare : Nat := 4

/-- The BULK entries that stand. -/
def Msu.bulkCount (m : Msu) : Nat := (m.queue.filter (fun w => w.origin = .bulk)).length

/-- The image and origin of a waiting entry replaced in place. -/
def replaceWrite (w : Write) (q : List Write) : List Write :=
  q.map (fun x => if x.block = w.block then w else x)

/-- R143: a write request; none where it is refused for want of room. -/
def Msu.enqueue (w : Write) (m : Msu) : Option Msu :=
  if m.waiting.any (fun x => x.block == w.block) then
    some { m with queue := if m.engine = .idle then replaceWrite w m.queue
                           else m.queue.take 1 ++ replaceWrite w m.queue.tail }
  else if m.queue.length < queueCapacity then some { m with queue := m.queue ++ [w] }
  else none

/-- R144, Start of a write: an IDLE engine takes the head. -/
def Msu.startWrite (m : Msu) : Msu :=
  if m.engine = .idle ∧ m.queue ≠ [] then
    { m with engine := .erasing, retried := false, pushback := 0 }
  else m

/-! ## The bulk job (R148 to R150) -/

/-- Blocks of a job (R148). -/
def Job.total (j : Job) : Nat :=
  match j.kind with
  | .none => 0
  | .commit => configBlocks
  | .copy => memoriesPerLevel

/-- R150: the destination's record of memory `memory`, formed from what its source reads as. -/
def copyImage (dest : Nat) (source : Option (List Byte)) : List Byte :=
  match source with
  | none => blankImage
  | some image => image.set 2 (toByte dest)

/-- The block that the job forms next and its image, with the read it rests on: the configuration
block from the working tables for a commit, the destination's record for a copy. -/
def Msu.formNext (config : Nat → List Byte) (m : Msu) : Write × Msu × List Raise :=
  match m.job.kind with
  | .copy =>
    let r := m.read (memoryBlock m.job.source m.job.next)
    (⟨memoryBlock m.job.dest m.job.next, copyImage m.job.dest r.1, .bulk⟩, r.2.1, r.2.2)
  | _ => (⟨configStart + m.job.next, config m.job.next, .bulk⟩, m, [])

/-- The job may form a block now (R148). -/
def Msu.mayForm (m : Msu) : Bool :=
  m.job.outcome = .running && !m.job.stopForming && m.job.next < m.job.total &&
    m.bulkCount < bulkShare && m.queue.length < queueCapacity

/-- R148, R150: the job forms as many blocks in turn as the counts allow; a copy to a level found
locked stops forming. `locked` gives the lock mask, `config` the configuration blocks. -/
def Msu.pump (config : Nat → List Byte) (locked : Nat → Bool) : Nat → Msu → Msu × List Raise
  | 0, m => quiet m
  | n + 1, m =>
    if m.mayForm then
      if m.job.kind = .copy ∧ locked m.job.dest then
        quiet { m with job := { m.job with stopForming := true } }
      else
        let f := m.formNext config
        match f.2.1.enqueue f.1 with
        | none => (f.2.1, f.2.2)
        | some m' =>
          let r := Msu.pump config locked n
            { m' with job := { m'.job with next := m'.job.next + 1 } }
          (r.1, f.2.2 ++ r.2)
    else quiet m

/-- The outcome of a job that ends (R148). -/
def Job.verdict (j : Job) : JobOutcome :=
  if j.dropped then .faulted else if j.stopForming then .stopped else .complete

/-- R148: a job that has formed its last block, or stopped forming, ends when none of its BULK
entries is left. -/
def Msu.settleJob (m : Msu) : Msu × List Raise :=
  if m.job.outcome = .running ∧ (m.job.total ≤ m.job.next ∨ m.job.stopForming) ∧
      m.bulkCount = 0 then
    ({ m with job := { m.job with outcome := m.job.verdict } }, [.jobDone])
  else quiet m

/-- After an event that may have freed a place or filled the queue: the job forms its blocks, an IDLE
engine takes the head, and a job that is through ends. -/
def Msu.advance (config : Nat → List Byte) (locked : Nat → Bool) (m : Msu) : Msu × List Raise :=
  andThen (Msu.pump config locked (m.job.total - m.job.next))
    (fun m => Msu.settleJob m.startWrite) m

/-- R149, R150: a job starts. -/
def Msu.startJob (config : Nat → List Byte) (locked : Nat → Bool) (kind : JobKind)
    (source dest : Nat) (m : Msu) : Msu × List Raise :=
  Msu.advance config locked
    { m with job := ⟨kind, source, dest, 0, .running, false, false⟩ }

/-! ## The engine (R144, R145) -/

/-- The image is blank (R144). -/
def isBlank (image : List Byte) : Bool := image == blankImage

/-- R144, Erase end, for the entry in flight. -/
def Msu.eraseEnd (flaws : List (Nat × Byte)) (w : Write) (m : Msu) : Msu :=
  { m with array := eraseBlock w.block flaws m.array
           engine := if isBlank w.image then .verifying else .programming
           pushback := 0 }

/-- R144, Program end. -/
def Msu.programEnd (flaws : List (Nat × Byte)) (w : Write) (m : Msu) : Msu :=
  { m with array := programBlock w.block w.image flaws m.array
           engine := .verifying
           pushback := 0 }

/-- The entry in flight leaves the queue and the engine goes to IDLE. -/
def Msu.finishWrite (m : Msu) : Msu :=
  { m with queue := m.queue.tail, engine := .idle, retried := false, pushback := 0 }

/-- R144, R145: a verify ends: a match ends the write; the first failure of the entry erases the
block again; the second drops the entry. -/
def Msu.verifyEnd (config : Nat → List Byte) (locked : Nat → Bool) (w : Write) (m : Msu) :
    Msu × List Raise :=
  if readBlock m.array w.block = w.image then Msu.advance config locked m.finishWrite
  else if m.retried = false then
    quiet { m with engine := .erasing, retried := true, pushback := 0 }
  else
    let m' := m.finishWrite
    let r := Msu.advance config locked
      (if w.origin = .bulk then { m' with job := { m'.job with dropped := true } } else m')
    (r.1, .storeFault w.block :: r.2)

/-! ## Power loss (R153) -/

/-- What an erase or program that is cut leaves in a block: any state that reads blank or failing.
Open bytes that would read as good have their marker lost. -/
def cutImage (free block : Nat) : List Byte :=
  let image := (List.range blockBytes).map (Config.cutByte free)
  match judgeBlock block image with
  | .good _ => image.set 0 erasedByte
  | .blank => image
  | .failing => image

/-- The block that a loss of power finds being erased or programmed. -/
def Msu.cutBlock (m : Msu) : Option Nat :=
  match m.engine with
  | .erasing => m.queue.head?.map Write.block
  | .programming => m.queue.head?.map Write.block
  | .suspended => m.queue.head?.map Write.block
  | .idle => none
  | .verifying => none

/-- The array after a loss of power. -/
def Msu.cutArray (free : Nat) (m : Msu) : List Host.Cell :=
  match m.cutBlock with
  | none => m.array
  | some b =>
    if b < arrayBlocks then writeBlock b (fun j => (cutImage free b).getD j erasedByte) m.array
    else m.array

end Sys2Proof.Machine
end

