-- ==== Sys2Proof/Machine/Effects.lean ====
section
/-! DEFINITION. The EFU: tremulants and expression (chapter 6). -/

namespace Sys2Proof.Machine

/-! ## Tremulant gating (R107, R108) -/

/-- The output taken to a level, with its request when it changes. -/
def Trem.setOut (e : TremEntry) (v : Bool) (t : Trem) : Trem × List Req :=
  if t.out = v then quiet t else ({ t with out := v }, [request v e.output])

/-- R107, R108: a tremulant begin. -/
def Trem.begin (t : Trem) : Trem × List Req :=
  let t' := { t with demand := t.demand + 1 }
  if t.demand = 0 then
    match t.gating with
    | .idle => quiet { t' with gating := .waiting }
    | .ending => quiet { t' with gating := .pulsing }
    | .waiting => quiet t'
    | .pulsing => quiet t'
  else quiet t'

/-- R107, R108: a tremulant end. -/
def Trem.finish (t : Trem) : Trem × List Req :=
  let t' := { t with demand := t.demand - 1 }
  if t.demand = 1 then
    match t.gating with
    | .waiting => quiet { t' with gating := .idle }
    | .pulsing => quiet { t' with gating := if t.phaseOn then .ending else .idle }
    | .idle => quiet t'
    | .ending => quiet t'
  else quiet t'

/-- R108: the gating takes an on-phase start. -/
def Trem.onStart (e : TremEntry) (t : Trem) : Trem × List Req :=
  match t.gating with
  | .waiting => Trem.setOut e true { t with gating := .pulsing }
  | .pulsing => Trem.setOut e true t
  | .idle => quiet t
  | .ending => quiet t

/-- R108: the gating takes an on-phase end. -/
def Trem.onEnd (e : TremEntry) (t : Trem) : Trem × List Req :=
  match t.gating with
  | .pulsing => Trem.setOut e false t
  | .ending => Trem.setOut e false { t with gating := .idle }
  | .idle => quiet t
  | .waiting => quiet t

/-! ## The phase generator (R104, R105) -/

/-- The length a phase takes at its start (R104). -/
def TremEntry.phaseLength (e : TremEntry) (phaseOn : Bool) : Nat :=
  if phaseOn then e.onLength else e.offLength

/-- The phase in progress ends and the other starts at once, with the gating's edge. -/
def Trem.endPhase (e : TremEntry) (t : Trem) : Trem × List Req :=
  let t' := { t with phaseOn := !t.phaseOn, counter := 0, length := e.phaseLength (!t.phaseOn) }
  if t.phaseOn then Trem.onEnd e t' else Trem.onStart e t'

/-- R105: a slave counts a beat of its master. -/
def Trem.masterBeat (e : TremEntry) (ratio : Nat) (t : Trem) : Trem × List Req :=
  if ratio ≤ t.counter + 1 then Trem.endPhase e t else quiet { t with counter := t.counter + 1 }

/-- The generator at the start of an OFF phase (R110 step 4, R120). -/
def Trem.startGenerator (e : TremEntry) (t : Trem) : Trem :=
  { t with phaseOn := false, counter := 0, length := e.offLength }

/-- R110: the change of a Tremulant Table load. -/
def Trem.load (new : Slot TremEntry) (t : Trem) : Trem × List Req :=
  let offs : List Req :=
    match t.entry with
    | .invalid _ => []
    | .valid e => if t.out then [Req.off e.output] else []
  let t' : Trem :=
    { t with entry := new, phaseOn := false, counter := 0, length := 0, gating := .idle, out := false }
  (match new with
    | .invalid _ => t'
    | .valid e => t'.startGenerator e, offs)

/-- One ms step of a FREE generator's phase counter; at the phase length its end stands until it is
taken. -/
def Trem.msStep (t : Trem) : Trem :=
  match t.entry with
  | .invalid _ => t
  | .valid e =>
    match e.source with
    | .free => if t.counter < t.length then { t with counter := t.counter + 1 } else t
    | .slave _ _ => t

/-! ## Expression (R113 to R119) -/

/-- The position of the highest set bit of a position 1..255 (R113). -/
def highestBit (p : Nat) : Nat := ((List.range 8).filter (fun k => 2 ^ k ≤ p)).length - 1

/-- R113: the level of a position. -/
def levelOf (curve : Curve) (p : Nat) : Nat :=
  match curve with
  | .linear => p / 4
  | .tapered =>
    if p = 0 then 0
    else
      let e := highestBit p
      8 * e + (p * 8 / 2 ^ e - 8)

/-- R114: the accepted level after a new level. -/
def acceptLevel (hysteresis level accepted : Nat) : Nat :=
  if hysteresis ≤ (level - accepted) + (accepted - level) ∨ level = 0 ∨ level = 63 then level
  else accepted

/-- R115: the target stage of an accepted level. -/
def targetOf (stages accepted : Nat) : Nat := (2 * accepted * stages + 63) / 126

/-- R117: the requests of a move of the current stage from `c` to `c'`: on ascending, off
descending. Stage j drives first stage output + j − 1. -/
def stageRequests (firstOut c c' : Nat) : List Req :=
  ((List.range c').filter (c ≤ ·)).map (fun j => Req.on (firstOut + j)) ++
    (((List.range c).filter (c' ≤ ·)).reverse).map (fun j => Req.off (firstOut + j))

/-- The current stage moved, with its requests. -/
def Expr.moveTo (e : ExprEntry) (c' : Nat) (x : Expr) : Expr × List Req :=
  ({ x with current := c' }, stageRequests e.firstOut x.current c')

/-- R116: the accepted level's target is taken: at once with slew 0, else by the step timer. -/
def Expr.follow (e : ExprEntry) (x : Expr) : Expr × List Req :=
  let x' := { x with target := targetOf e.stages x.accepted }
  if e.slew = 0 then Expr.moveTo e x'.target x'
  else if x'.target ≠ x'.current ∧ x'.timer = none then quiet { x' with timer := some e.slew }
  else quiet x'

/-- R112 to R116: a position of the channel's shoe. -/
def Expr.position (e : ExprEntry) (p : Nat) (x : Expr) : Expr × List Req :=
  let level := levelOf e.curve p
  Expr.follow e { x with level := level, accepted := acceptLevel e.hysteresis level x.accepted }

/-- R118: a fresh reading of a shoe. -/
def Expr.freshReading (e : ExprEntry) (p : Nat) (x : Expr) : Expr × List Req :=
  let level := levelOf e.curve p
  Expr.follow e { x with level := level, accepted := level }

/-- R116: the step timer ends: one stage toward the target of this moment, and the timer starts
again if they still differ. -/
def Expr.stepEnd (e : ExprEntry) (x : Expr) : Expr × List Req :=
  if x.timer = some 0 then
    let c' :=
      if x.current < x.target then x.current + 1
      else if x.target < x.current then x.current - 1
      else x.current
    Expr.moveTo e c' { x with timer := if c' = x.target then none else some e.slew }
  else quiet x

/-- R119: an Expression Table load that is taken; `shoe` gives the last positions. -/
def Expr.load (shoe : Nat → Nat) (new : Slot ExprEntry) (x : Expr) : Expr × List Req :=
  let offs : List Req :=
    match x.entry with
    | .invalid _ => []
    | .valid e => stageRequests e.firstOut x.current 0
  let x' : Expr := ⟨new, 0, 0, 0, 0, none⟩
  let r :=
    match new with
    | .invalid _ => quiet x'
    | .valid e => Expr.freshReading e (shoe e.shoe) x'
  (r.1, offs ++ r.2)

/-- One ms step of the step timer; at 0 its end stands until it is taken. -/
def Expr.msStep (x : Expr) : Expr := { x with timer := x.timer.map (· - 1) }

/-! ## The unit -/

/-- Tremulant `t`. -/
def Efu.trem (f : Efu) (t : Nat) : Trem := nth f.trems t Trem.reset

/-- Expression channel `x`. -/
def Efu.expr (f : Efu) (x : Nat) : Expr := nth f.exprs x Expr.reset

/-- The last position received from a shoe. -/
def Efu.shoe (f : Efu) (s : Nat) : Nat := nth f.shoes s 0

/-- Work on one tremulant. -/
def Efu.onTrem (t : Nat) (g : Trem → Trem × List Req) (f : Efu) : Efu × List Req :=
  let r := g (f.trem t)
  ({ f with trems := put f.trems t r.1 }, r.2)

/-- Work on one expression channel. -/
def Efu.onExpr (x : Nat) (g : Expr → Expr × List Req) (f : Efu) : Efu × List Req :=
  let r := g (f.expr x)
  ({ f with exprs := put f.exprs x r.1 }, r.2)

/-- R46, R107: a tremulant begin or end from the UNE. -/
def Efu.tremMessage (begins : Bool) (t : Nat) (f : Efu) : Efu × List Req :=
  f.onTrem t fun x =>
    match x.entry with
    | .invalid _ => quiet x
    | .valid _ => if begins then x.begin else x.finish

/-- R105: a beat of master `t` is counted by each valid slave of it, ascending. -/
def Efu.slavesBeat (t : Nat) : Efu → Efu × List Req :=
  visit (List.range 12) fun j f =>
    f.onTrem j fun x =>
      match x.entry with
      | .invalid _ => quiet x
      | .valid e =>
        match e.source with
        | .free => quiet x
        | .slave master ratio => if master = t then x.masterBeat e ratio else quiet x

/-- R104: the phase of FREE tremulant `t` ends. -/
def Efu.phaseEnd (t : Nat) (f : Efu) : Efu × List Req :=
  match (f.trem t).entry with
  | .invalid _ => quiet f
  | .valid e =>
    if e.source = .free ∧ (f.trem t).counter = (f.trem t).length then
      andThen (Efu.onTrem t (Trem.endPhase e)) (Efu.slavesBeat t) f
    else quiet f

/-- R103, CONFLICT step: the cascade rules for a SLAVE entry at index `t`. -/
def Efu.slaveConflict (t : Nat) (e : TremEntry) (f : Efu) : Bool :=
  match e.source with
  | .free => false
  | .slave master _ =>
    master == t ||
    (match (f.trem master).entry with
      | .valid m => m.source != .free
      | .invalid _ => false) ||
    (List.range 12).any fun j =>
      j != t && match (f.trem j).entry with
        | .invalid _ => false
        | .valid e' =>
          match e'.source with
          | .free => false
          | .slave master' _ => master' == t

/-- R106: the lengths of a tremulant replaced. -/
def Efu.setLengths (t on off : Nat) (f : Efu) : Efu :=
  match (f.trem t).entry with
  | .invalid _ => f
  | .valid e =>
    let x := { f.trem t with entry := .valid { e with onLength := on, offLength := off } }
    { f with trems := put f.trems t x }

/-- R112: a shoe position event. -/
def Efu.shoeEvent (s p : Nat) (f : Efu) : Efu × List Req :=
  visit [0, 1]
    (fun x f => f.onExpr x fun c =>
      match c.entry with
      | .invalid _ => quiet c
      | .valid e => if e.shoe = s then c.position e p else quiet c)
    { f with shoes := put f.shoes s p }

/-- R118: a valid channel's source shoe replaced, and a fresh reading taken. -/
def Efu.assignShoe (x s : Nat) (f : Efu) : Efu × List Req :=
  f.onExpr x fun c =>
    match c.entry with
    | .invalid _ => quiet c
    | .valid e =>
      let e' := { e with shoe := s }
      Expr.freshReading e' (f.shoe s) { c with entry := .valid e' }

/-- R119. -/
def Efu.loadExpr (x : Nat) (new : Slot ExprEntry) (f : Efu) : Efu × List Req :=
  f.onExpr x (Expr.load f.shoe new)

/-- R116: the step timer of channel `x` ends. -/
def Efu.stepEnd (x : Nat) (f : Efu) : Efu × List Req :=
  f.onExpr x fun c =>
    match c.entry with
    | .invalid _ => quiet c
    | .valid e => c.stepEnd e

/-- One ms step of the unit (R101). -/
def Efu.msStep (f : Efu) : Efu :=
  { f with trems := mapV Trem.msStep f.trems, exprs := mapV Expr.msStep f.exprs }

end Sys2Proof.Machine
end

