-- ==== Sys2Proof/Machine/Percussion.lean ====
section
/-! DEFINITION. The percussion units of the PTU (chapter 4). A unit's work is a function to its new
state and the requests it sends the OMU, in order. -/

namespace Sys2Proof.Machine

/-! ## Beat counters (R75, R92) -/

/-- The counter set to 0 and running. -/
def BeatCounter.start : BeatCounter := ⟨true, 0, false⟩

/-- Stopped, keeping its value; a beat not yet taken does not occur (R76, R92). -/
def BeatCounter.stop (b : BeatCounter) : BeatCounter := ⟨false, b.counter, false⟩

/-- One ms step: a running counter advances; at the interval it is set to 0 and a beat falls due;
beyond 255 it becomes 0, which is no beat. -/
def BeatCounter.advance (interval : Nat) (b : BeatCounter) : BeatCounter :=
  if !b.running then b
  else if b.counter + 1 = interval then ⟨true, 0, true⟩
  else if 255 < b.counter + 1 then { b with counter := 0 }
  else { b with counter := b.counter + 1 }

/-- R77, R95: the interval `old` is replaced by `v`. A beat that has fallen due in this very ms step and
has not been taken is judged against `v`: the counter stands at the value it advanced to, and the
beat does not occur unless `v` is that value. -/
def BeatCounter.retime (old v : Nat) (b : BeatCounter) : BeatCounter :=
  if b.running && b.due && b.counter == 0 && v != old then ⟨true, old, false⟩ else b

/-! ## Notes -/

/-- Note `i` of the unit. -/
def PercUnit.note (u : PercUnit) (i : Nat) : Note := nth u.notes i Note.rest

/-- The unit with note `i` replaced. -/
def PercUnit.withNote (i : Nat) (n : Note) (u : PercUnit) : PercUnit :=
  { u with notes := put u.notes i n }

/-- The notes of a unit, ascending. -/
def PercEntry.notes (e : PercEntry) : List Nat := List.range e.count

/-- The unit's total reiteration demand (R72). -/
def PercUnit.totalReiteration (u : PercUnit) : Nat :=
  ((List.range 49).map (fun i => (u.note i).reiteration)).sum

/-! ## The damper (R78, R79) -/

/-- R78: whether the damper output is to be requested. -/
def PercUnit.damperWanted (e : PercEntry) (u : PercUnit) : Bool :=
  match e.damperMode with
  | .none => false
  | .always => true
  | .key => decide (0 < u.damperDemand) || !u.queue.isEmpty || decide (0 < u.striking)

/-- R78: the damper's condition taken afresh, with the request when it has changed. -/
def PercUnit.judgeDamper (e : PercEntry) (u : PercUnit) : PercUnit × List Req :=
  match e.damper with
  | none => quiet u
  | some o =>
    let want := u.damperWanted e
    if want = u.damperOn then quiet u else ({ u with damperOn := want }, [request want o])

/-! ## Strokes -/

/-- R68: note `i` starts striking. -/
def PercUnit.startStrike (e : PercEntry) (i : Nat) (u : PercUnit) : PercUnit × List Req :=
  ({ u.withNote i { u.note i with state := .striking, timer := 4 * e.pulse } with
      striking := u.striking + 1 },
    [.on (e.firstOut + i)])

/-- R67: a strike request for note `i`, discarded while the chamber is muted. -/
def PercUnit.strikeRequest (muted : Bool) (e : PercEntry) (i : Nat) (u : PercUnit) :
    PercUnit × List Req :=
  if muted then quiet u
  else
    match (u.note i).state with
    | .idle =>
      if u.striking < e.budget then u.startStrike e i
      else quiet { u.withNote i { u.note i with state := .queued } with queue := u.queue ++ [i] }
    | .queued => quiet u
    | .striking => quiet u
    | .resting => quiet (u.withNote i { u.note i with pending := true })

/-- The pulse of note `i` ends: request-off, RESTING with a full rest, one fewer striking (R69,
R80 step 3). -/
def PercUnit.endPulse (e : PercEntry) (i : Nat) (u : PercUnit) : PercUnit × List Req :=
  ({ u.withNote i { u.note i with state := .resting, timer := 4 * e.rest } with
      striking := u.striking - 1 },
    [.off (e.firstOut + i)])

/-- R69: the head of the Strike Queue, if there is one, starts striking. -/
def PercUnit.startHead (e : PercEntry) (u : PercUnit) : PercUnit × List Req :=
  match u.queue with
  | [] => quiet u
  | h :: rest => PercUnit.startStrike e h { u with queue := rest }

/-- R69: the pulse timer of note `i` expires. -/
def PercUnit.pulseEnd (e : PercEntry) (i : Nat) (u : PercUnit) : PercUnit × List Req :=
  if (u.note i).state = .striking ∧ (u.note i).timer = 0 then
    andThen (PercUnit.endPulse e i) (andThen (PercUnit.startHead e) (PercUnit.judgeDamper e)) u
  else quiet u

/-- R70: the rest timer of note `i` expires. -/
def PercUnit.restEnd (muted : Bool) (e : PercEntry) (i : Nat) (u : PercUnit) :
    PercUnit × List Req :=
  if (u.note i).state = .resting ∧ (u.note i).timer = 0 then
    let idle := u.withNote i { u.note i with state := .idle, pending := false }
    if (u.note i).pending then
      andThen (PercUnit.strikeRequest muted e i) (PercUnit.judgeDamper e) idle
    else quiet idle
  else quiet u

/-! ## The reiterator (R75, R76) -/

/-- R76: a strike request for every note with reiteration demand, ascending. -/
def PercUnit.beat (muted : Bool) (e : PercEntry) (u : PercUnit) : PercUnit × List Req :=
  andThen
    (visit e.notes fun i u =>
      if 0 < (u.note i).reiteration then PercUnit.strikeRequest muted e i u else quiet u)
    (PercUnit.judgeDamper e) u

/-- R76: the beat that has fallen due is taken. -/
def PercUnit.reiteratorBeat (muted : Bool) (e : PercEntry) (u : PercUnit) : PercUnit × List Req :=
  if u.reiterator.running && u.reiterator.due then
    PercUnit.beat muted e { u with reiterator := { u.reiterator with due := false } }
  else quiet u

/-! ## Begins and ends (R72) -/

/-- R72: a percussion begin; the damper demand first, then the rest of the message. -/
def PercUnit.begin (muted : Bool) (mode : StopMode) (e : PercEntry) (i : Nat) (u : PercUnit) :
    PercUnit × List Req :=
  andThen (PercUnit.judgeDamper e)
    (fun u =>
      if mode = .reiterate then
        let before := u.totalReiteration
        let u' := u.withNote i { u.note i with reiteration := (u.note i).reiteration + 1 }
        if before = 0 then PercUnit.beat muted e { u' with reiterator := BeatCounter.start }
        else quiet u'
      else
        andThen (PercUnit.strikeRequest muted e i) (PercUnit.judgeDamper e) u)
    { u with damperDemand := u.damperDemand + 1 }

/-- R72: a percussion end. -/
def PercUnit.finish (mode : StopMode) (e : PercEntry) (i : Nat) (u : PercUnit) :
    PercUnit × List Req :=
  andThen (PercUnit.judgeDamper e)
    (fun u =>
      if mode = .reiterate then
        let u' := u.withNote i { u.note i with reiteration := (u.note i).reiteration - 1 }
        quiet (if u'.totalReiteration = 0 then { u' with reiterator := u'.reiterator.stop } else u')
      else quiet u)
    { u with damperDemand := u.damperDemand - 1 }

/-! ## Mute, release and load -/

/-- The Strike Queue emptied with every QUEUED note IDLE, and every pending flag cleared (R80 steps
1 and 2, R82). -/
def PercUnit.flush (u : PercUnit) : PercUnit :=
  { u with
    queue := []
    notes := mapV (fun n => { n with state := if n.state = .queued then .idle else n.state,
                                     pending := false }) u.notes }

/-- R80: a MUTED notice on a valid unit of the chamber. R80 gives no order among the STRIKING notes of
one unit: the model ends them in ascending note number (assumption 41). -/
def PercUnit.mute (e : PercEntry) (u : PercUnit) : PercUnit × List Req :=
  andThen
    (visit e.notes fun i u =>
      if (u.note i).state = .striking then PercUnit.endPulse e i u else quiet u)
    (PercUnit.judgeDamper e) u.flush

/-- R82: the unit's part of step 3 of RELEASE ALL. -/
def PercUnit.releaseAll (e : PercEntry) (u : PercUnit) : PercUnit × List Req :=
  PercUnit.judgeDamper e u.flush

/-- R65 steps 1 to 3: every note IDLE, the outputs that are on released at the old entry, the
reiterator stopped at 0 and the counts at 0. R65 gives no order among the request-offs of the
notes: the model sends them in ascending note number (assumption 41). -/
def PercUnit.restart (u : PercUnit) : PercUnit × List Req :=
  let offs : List Req :=
    match u.entry with
    | .invalid _ => []
    | .valid e =>
      ((List.range 49).filter (fun i => (u.note i).state = .striking)).map
          (fun i => Req.off (e.firstOut + i)) ++
        (match e.damper with
          | some o => if u.damperOn then [Req.off o] else []
          | none => [])
  ({ PercUnit.reset with entry := u.entry }, offs)

/-- R65: the change of a Percussion Table load: the restart, the entry replaced, and an ALWAYS
damper requested. -/
def PercUnit.load (new : Slot PercEntry) (u : PercUnit) : PercUnit × List Req :=
  andThen PercUnit.restart
    (fun u =>
      let u' := { u with entry := new }
      match new with
      | .invalid _ => quiet u'
      | .valid e => PercUnit.judgeDamper e u')
    u

/-! ## Time -/

/-- One tick of a note's pulse or rest timer; at 0 its end stands until it is taken. -/
def Note.tick (n : Note) : Note := { n with timer := n.timer - 1 }

/-- One tick of the unit. -/
def PercUnit.tick (u : PercUnit) : PercUnit := { u with notes := mapV Note.tick u.notes }

/-- One ms step of the unit. -/
def PercUnit.msStep (u : PercUnit) : PercUnit :=
  match u.entry with
  | .invalid _ => u
  | .valid e => { u with reiterator := u.reiterator.advance e.interval }

end Sys2Proof.Machine
end

