-- ==== Sys2Proof/Machine/Trap.lean ====
section
/-! DEFINITION. The trap channels of the PTU (chapter 5) and the unit as a whole: studs, cues, mute
notices, RELEASE ALL's step 3 and time. -/

namespace Sys2Proof.Machine

/-! ## A channel's output (R90) -/

/-- R90: whether the output is to be requested. `muted` is the PTU's copy of the mute flags. -/
def TrapChan.outWanted (muted : Chamber → Bool) (c : TrapChan) : Bool :=
  match c.entry with
  | .invalid _ => false
  | .valid e =>
    c.state = .striking || (e.mode = .held && decide (0 < c.demand) && !muted e.chamber)

/-- R90: the output condition taken afresh, with the request when it has changed. -/
def TrapChan.judgeOut (muted : Chamber → Bool) (c : TrapChan) : TrapChan × List Req :=
  match c.entry with
  | .invalid _ => quiet c
  | .valid e =>
    let want := c.outWanted muted
    if want = c.out then quiet c else ({ c with out := want }, [request want e.output])

/-! ## Blows (R89, R90) -/

/-- R93: a blow that starts in mode COUNTED takes one from the remaining count if it is above 0; at
0 the beat counter stops. -/
def TrapChan.countBlow (e : TrapEntry) (c : TrapChan) : TrapChan :=
  if e.mode = .counted ∧ 0 < c.remaining then
    { c with remaining := c.remaining - 1,
             beat := if c.remaining = 1 then c.beat.stop else c.beat }
  else c

/-- R89: a strike request, discarded for an invalid channel or a muted chamber. -/
def TrapChan.strike (muted : Chamber → Bool) (c : TrapChan) : TrapChan :=
  match c.entry with
  | .invalid _ => c
  | .valid e =>
    if muted e.chamber then c
    else
      match c.state with
      | .idle => TrapChan.countBlow e { c with state := .striking, timer := 4 * e.pulse }
      | .queued => c
      | .striking => c
      | .resting => { c with pending := true }

/-- R90: the pulse timer expires. -/
def TrapChan.pulseEnd (muted : Chamber → Bool) (c : TrapChan) : TrapChan × List Req :=
  match c.entry with
  | .invalid _ => quiet c
  | .valid e =>
    if c.state = .striking ∧ c.timer = 0 then
      TrapChan.judgeOut muted { c with state := .resting, timer := 4 * e.rest }
    else quiet c

/-- R90: the rest timer expires. -/
def TrapChan.restEnd (muted : Chamber → Bool) (c : TrapChan) : TrapChan × List Req :=
  if c.state = .resting ∧ c.timer = 0 then
    let idle := { c with state := .idle, pending := false }
    TrapChan.judgeOut muted (if c.pending then idle.strike muted else idle)
  else quiet c

/-- R92, R93: the beat that has fallen due is taken: a strike request in a REITERATE roll, and in a
COUNTED run while the remaining count is above 0. -/
def TrapChan.takeBeat (muted : Chamber → Bool) (c : TrapChan) : TrapChan × List Req :=
  match c.entry with
  | .invalid _ => quiet c
  | .valid e =>
    if c.beat.running && c.beat.due then
      let c' := { c with beat := { c.beat with due := false } }
      TrapChan.judgeOut muted
        (if e.mode = .counted ∧ c'.remaining = 0 then c' else c'.strike muted)
    else quiet c

/-! ## Demand and triggers (R86, R88) -/

/-- R86, R92: the demand takes a value; a REITERATE counter starts with a beat at once on 0→1 and
stops on 1→0; a HELD output follows. -/
def TrapChan.setDemand (muted : Chamber → Bool) (d : Nat) (c : TrapChan) : TrapChan × List Req :=
  let c' := { c with demand := d }
  match c.entry with
  | .invalid _ => quiet c'
  | .valid e =>
    TrapChan.judgeOut muted
      (if e.mode = .reiterate then
        if c.demand = 0 ∧ 0 < d then
          TrapChan.strike muted { c' with beat := BeatCounter.start }
        else if 0 < c.demand ∧ d = 0 then { c' with beat := c.beat.stop }
        else c'
      else c')

/-- One caller more. -/
def TrapChan.raise (muted : Chamber → Bool) (c : TrapChan) : TrapChan × List Req :=
  c.setDemand muted (c.demand + 1)

/-- One caller fewer. -/
def TrapChan.lower (muted : Chamber → Bool) (c : TrapChan) : TrapChan × List Req :=
  c.setDemand muted (c.demand - 1)

/-- R93: a COUNTED run is started or reloaded. -/
def TrapChan.startRun (muted : Chamber → Bool) (e : TrapEntry) (c : TrapChan) : TrapChan :=
  TrapChan.strike muted { c with remaining := e.repeats + 1, beat := BeatCounter.start }

/-- R88: a trigger; `cue` for a cue TRIGGER, else from a trap begin or a stud DOWN. -/
def TrapChan.trigger (muted : Chamber → Bool) (cue : Bool) (c : TrapChan) : TrapChan × List Req :=
  match c.entry with
  | .invalid _ => quiet c
  | .valid e =>
    if muted e.chamber then quiet c
    else
      match e.mode with
      | .pulse => TrapChan.judgeOut muted (c.strike muted)
      | .held => if cue then TrapChan.judgeOut muted (c.strike muted) else quiet c
      | .reiterate => if cue then TrapChan.judgeOut muted (c.strike muted) else quiet c
      | .counted => TrapChan.judgeOut muted (c.startRun muted e)

/-- R94: HOLD ON. -/
def TrapChan.holdOn (muted : Chamber → Bool) (c : TrapChan) : TrapChan × List Req :=
  if c.cueHold then quiet c else TrapChan.raise muted { c with cueHold := true }

/-- R94: HOLD OFF. -/
def TrapChan.holdOff (muted : Chamber → Bool) (c : TrapChan) : TrapChan × List Req :=
  if c.cueHold then TrapChan.lower muted { c with cueHold := false } else quiet c

/-- In mode COUNTED the run is ended (R98 step 3, R99). -/
def TrapChan.endRun (c : TrapChan) : TrapChan :=
  match c.entry with
  | .invalid _ => c
  | .valid e =>
    if e.mode = .counted then { c with remaining := 0, beat := c.beat.stop } else c

/-- R98: a MUTED notice on a valid channel of the chamber. -/
def TrapChan.mute (muted : Chamber → Bool) (e : TrapEntry) (c : TrapChan) : TrapChan × List Req :=
  let c1 := if c.state = .striking then { c with state := .resting, timer := 4 * e.rest } else c
  TrapChan.judgeOut muted (TrapChan.endRun { c1 with pending := false })

/-- R98: an UNMUTED notice: a HELD channel with demand sounds again; nothing is struck. -/
def TrapChan.unmute (muted : Chamber → Bool) (c : TrapChan) : TrapChan × List Req :=
  c.judgeOut muted

/-- R99: the channel's part of step 3 of RELEASE ALL. -/
def TrapChan.releaseAll (muted : Chamber → Bool) (c : TrapChan) : TrapChan × List Req :=
  andThen (TrapChan.holdOff muted)
    (fun c => quiet (TrapChan.endRun { c with pending := false })) c

/-- R96: the change of a Trap Table load: the channel restarted, its output released at the old
entry, the entry replaced, and the standing demand taken by the new mode. -/
def TrapChan.load (muted : Chamber → Bool) (new : Slot TrapEntry) (c : TrapChan) :
    TrapChan × List Req :=
  let offs : List Req :=
    match c.entry with
    | .invalid _ => []
    | .valid e => if c.out then [Req.off e.output] else []
  let c' : TrapChan :=
    { c with entry := new, state := .idle, timer := 0, pending := false, remaining := 0,
             beat := BeatCounter.rest, out := false }
  let b :=
    match new with
    | .invalid _ => quiet c'
    | .valid _ => TrapChan.setDemand muted c.demand { c' with demand := 0 }
  (b.1, offs ++ b.2)

/-- One tick of a channel's timer; at 0 its end stands until it is taken. -/
def TrapChan.tick (c : TrapChan) : TrapChan := { c with timer := c.timer - 1 }

/-- One ms step of a channel. -/
def TrapChan.msStep (c : TrapChan) : TrapChan :=
  match c.entry with
  | .invalid _ => c
  | .valid e => { c with beat := c.beat.advance e.interval }

/-! ## The unit -/

/-- The PTU's copy of a chamber's mute flag (R80). -/
def Ptu.muted (p : Ptu) : Chamber → Bool
  | .main => p.muteMain
  | .solo => p.muteSolo

/-- Percussion unit `u`. -/
def Ptu.unit (p : Ptu) (u : Nat) : PercUnit := nth p.units u PercUnit.reset

/-- Trap channel `c`. -/
def Ptu.trap (p : Ptu) (c : Nat) : TrapChan := nth p.traps c TrapChan.reset

/-- Work on one percussion unit. -/
def Ptu.onUnit (u : Nat) (f : PercUnit → PercUnit × List Req) (p : Ptu) : Ptu × List Req :=
  let r := f (p.unit u)
  ({ p with units := put p.units u r.1 }, r.2)

/-- Work on one percussion unit if it is valid, with its chamber's mute copy and its entry. -/
def Ptu.onValidUnit (u : Nat) (f : Bool → PercEntry → PercUnit → PercUnit × List Req) (p : Ptu) :
    Ptu × List Req :=
  match (p.unit u).entry with
  | .invalid _ => quiet p
  | .valid e => p.onUnit u (f (p.muted e.chamber) e)

/-- Work on one trap channel, with the mute copy. -/
def Ptu.onTrap (c : Nat) (f : (Chamber → Bool) → TrapChan → TrapChan × List Req) (p : Ptu) :
    Ptu × List Req :=
  let r := f p.muted (p.trap c)
  ({ p with traps := put p.traps c r.1 }, r.2)

/-- R46, R72: a percussion begin or end from the UNE. -/
def Ptu.percMessage (begins : Bool) (u i : Nat) (mode : StopMode) (p : Ptu) : Ptu × List Req :=
  p.onValidUnit u fun muted e =>
    if begins then PercUnit.begin muted mode e i else PercUnit.finish mode e i

/-- R46, R86: a trap begin (demand and a trigger) or end (demand) from the UNE. -/
def Ptu.trapMessage (begins : Bool) (c : Nat) (p : Ptu) : Ptu × List Req :=
  p.onTrap c fun muted =>
    if begins then andThen (TrapChan.raise muted) (TrapChan.trigger muted false)
    else TrapChan.lower muted

/-- R87: a stud event. -/
def Ptu.studEvent (stud : Nat) (down : Bool) (p : Ptu) : Ptu × List Req :=
  let p' := { p with heldStuds := put p.heldStuds stud down }
  match nth p.studs stud none with
  | none => quiet p'
  | some c => p'.trapMessage down c

/-- R97: a Stud Table load that is taken. -/
def Ptu.loadStud (stud : Nat) (new : Option Nat) (p : Ptu) : Ptu × List Req :=
  if nth p.heldStuds stud false then
    andThen
      (fun p => match nth p.studs stud none with
        | none => quiet p
        | some c => p.onTrap c TrapChan.lower)
      (fun p =>
        let p' := { p with studs := put p.studs stud new }
        match new with
        | none => quiet p'
        | some c => p'.onTrap c TrapChan.raise)
      p
  else quiet { p with studs := put p.studs stud new }

/-- The mute copy with a chamber's flag replaced. -/
def Ptu.withMute (ch : Chamber) (muted : Bool) (p : Ptu) : Ptu :=
  match ch with
  | .main => { p with muteMain := muted }
  | .solo => { p with muteSolo := muted }

/-- Work on every valid percussion unit of a chamber, ascending. -/
def Ptu.eachUnitOf (ch : Chamber) (f : PercEntry → PercUnit → PercUnit × List Req) :
    Ptu → Ptu × List Req :=
  visit (List.range 8) fun u p =>
    p.onValidUnit u fun _ e => if e.chamber = ch then f e else quiet

/-- Work on every valid trap channel of a chamber, ascending. -/
def Ptu.eachTrapOf (ch : Chamber)
    (f : (Chamber → Bool) → TrapEntry → TrapChan → TrapChan × List Req) : Ptu → Ptu × List Req :=
  visit (List.range 32) fun c p =>
    p.onTrap c fun muted t =>
      match t.entry with
      | .invalid _ => quiet t
      | .valid e => if e.chamber = ch then f muted e t else quiet t

/-- R80, R81, R98: a mute notice from the UNE: the copy, the units, then the channels. No rule orders the
units and the channels on a notice: that the units come first is the model's choice (assumption 42). -/
def Ptu.muteNotice (ch : Chamber) (muted : Bool) (p : Ptu) : Ptu × List Req :=
  let p' := p.withMute ch muted
  if muted then
    andThen (Ptu.eachUnitOf ch PercUnit.mute) (Ptu.eachTrapOf ch TrapChan.mute) p'
  else Ptu.eachTrapOf ch (fun m _ => TrapChan.unmute m) p'

/-- R82, R99: step 3 of RELEASE ALL. -/
def Ptu.releaseAll : Ptu → Ptu × List Req :=
  andThen
    (visit (List.range 8) fun u p => p.onValidUnit u fun _ e => PercUnit.releaseAll e)
    (visit (List.range 32) fun c p => p.onTrap c TrapChan.releaseAll)

/-- R94: the channels of a cue's set, ascending. -/
def cueSet (ps : List Byte) : List Nat := (List.range 32).filter (bitAt ps)

/-- R94: an action on each channel of a set, each completed before the next. -/
def Ptu.cue (set : List Nat) (f : (Chamber → Bool) → TrapChan → TrapChan × List Req) :
    Ptu → Ptu × List Req :=
  visit set fun c p => p.onTrap c f

/-- R77: a unit's reiteration interval replaced. -/
def Ptu.setUnitInterval (u v : Nat) (p : Ptu) : Ptu :=
  match (p.unit u).entry with
  | .invalid _ => p
  | .valid e =>
    let x : PercUnit :=
      { p.unit u with entry := .valid { e with interval := v },
                      reiterator := (p.unit u).reiterator.retime e.interval v }
    { p with units := put p.units u x }

/-- R95: a channel's interval replaced. -/
def Ptu.setTrapInterval (c v : Nat) (p : Ptu) : Ptu :=
  match (p.trap c).entry with
  | .invalid _ => p
  | .valid e =>
    let x : TrapChan :=
      { p.trap c with entry := .valid { e with interval := v },
                      beat := (p.trap c).beat.retime e.interval v }
    { p with traps := put p.traps c x }

/-- One tick of every pulse and rest timer. -/
def Ptu.tick (p : Ptu) : Ptu :=
  { p with units := mapV PercUnit.tick p.units, traps := mapV TrapChan.tick p.traps }

/-- One ms step of every reiterator and beat counter. -/
def Ptu.msStep (p : Ptu) : Ptu :=
  { p with units := mapV PercUnit.msStep p.units, traps := mapV TrapChan.msStep p.traps }

end Sys2Proof.Machine
end

