-- ==== Sys2Proof/Machine/Unification.lean ====
section
/-! DEFINITION. The UNE: pitch arithmetic (chapter 2), contributions, demand counts, the Pizzicato
List, direct flags, mute and the two ends of withdraw-and-reapply (chapter 3). The unit's work is a
function to its new state and the messages it sends, in order; the tables of the PTU and the EFU are
read as they stand. -/

namespace Sys2Proof.Machine

/-! ## Messages and targets (R30, R46) -/

/-- A message of the UNE to the OMU, the PTU or the EFU. -/
inductive UneMsg where
  | pipe (r : Req)
  | perc (begins : Bool) (unit note : Nat) (mode : StopMode)
  | trap (begins : Bool) (channel : Nat)
  | trem (begins : Bool) (tremulant : Nat)
  | mute (chamber : Chamber) (muted : Bool)
deriving DecidableEq, Repr

/-- What a pair of a stop and a key, or a TREMULANT stop, plays (R30). -/
inductive Target where
  | pipe (rank pipe : Nat)
  | note (unit note : Nat) (mode : StopMode)
  | trap (channel : Nat)
  | trem (tremulant : Nat)
deriving DecidableEq, Repr

/-! ## Pitch arithmetic (R31 to R35) -/

/-- R34: a raw index above the compass. -/
def foldDown (fold : Fold) (count : Nat) (i : Int) : Option Nat :=
  if fold = .down ∨ fold = .both then
    let r := (i - count) / 12 + 1
    let j := i - 12 * r
    if 0 ≤ j then some j.toNat else none
  else none

/-- R35: a raw index below the compass. -/
def foldUp (fold : Fold) (count : Nat) (i : Int) : Option Nat :=
  if fold = .up ∨ fold = .both then
    let r := (-i - 1) / 12 + 1
    let j := i + 12 * r
    if j < count then some j.toNat else none
  else none

/-- R32 to R35: the index in a compass of `count` notes from `lowest` that a stop's key maps to. -/
def pitchIndex (e : StopEntry) (lowest count k : Nat) : Option Nat :=
  if k < e.lowKey ∨ e.highKey < k then none
  else
    let i : Int := 36 + k + e.offset - lowest
    if 0 ≤ i ∧ i < count then some i.toNat
    else if (count : Int) ≤ i then foldDown e.fold count i
    else foldUp e.fold count i

/-! ## Reading the unit -/

/-- Stop Table entry. -/
def Une.stop (u : Une) (s : Nat) : Slot StopEntry := nth u.stops s (blankSlot 8)

/-- Rank Table entry. -/
def Une.rank (u : Une) (r : Nat) : Slot RankEntry := nth u.ranks r (blankSlot 8)

/-- The held-key image (R42). -/
def Une.heldKey (u : Une) (d k : Nat) : Touch :=
  nth (nth u.heldKeys d (Vector.replicate 61 .up)) k .up

/-- The stop-on image (R42). -/
def Une.isOn (u : Une) (s : Nat) : Bool := nth u.stopOn s false

/-- The demand count of a pipe (R48). -/
def Une.count (u : Une) (r i : Nat) : Nat := nth (nth u.demand r (Vector.replicate 97 0)) i 0

/-- The direct flag of a pipe (R54). -/
def Une.directFlag (u : Une) (r i : Nat) : Bool :=
  nth (nth u.direct r (Vector.replicate 97 false)) i false

/-- The mute flag of a chamber (R56). -/
def Une.muted (u : Une) : Chamber → Bool
  | .main => u.muteMain
  | .solo => u.muteSolo

/-- Whether a touch state is at touch for a stop (R41). -/
def atTouch (touch : Row) (held : Touch) : Bool :=
  match touch, held with
  | .first, .first => true
  | .first, .second => true
  | .second, .second => true
  | _, _ => false

/-- R30, R37: the target of stop entry `e` and key `k`; none where the arithmetic gives no mapping or
the target's entry is invalid. -/
def Une.target (p : Ptu) (e : StopEntry) (k : Nat) (u : Une) : Option Target :=
  match e.kind with
  | .rank =>
    match u.rank e.target with
    | .invalid _ => none
    | .valid r => (pitchIndex e r.lowest r.count k).map (Target.pipe e.target)
  | .percussion =>
    match (p.unit e.target).entry with
    | .invalid _ => none
    | .valid q => (pitchIndex e q.lowest q.count k).map (fun i => Target.note e.target i e.mode)
  | .trap =>
    match (p.trap e.target).entry with
    | .invalid _ => none
    | .valid _ => if e.lowKey ≤ k ∧ k ≤ e.highKey then some (.trap e.target) else none
  | .tremulant => none

/-- R45: the target of a TREMULANT stop, while its tremulant is valid. -/
def tremTarget (f : Efu) (e : StopEntry) : Option Target :=
  match (f.trem e.target).entry with
  | .invalid _ => none
  | .valid _ => some (.trem e.target)

/-- R41, R50: the stop's contributions are windows of the Pizzicato List. -/
def StopEntry.plucked (e : StopEntry) : Bool := e.kind = .rank ∧ e.mode = .pizzicato

/-- The pair has an entry in the Pizzicato List. -/
def Une.hasWindow (u : Une) (s k : Nat) : Bool := u.pizz.any (fun z => z.stop == s && z.key == k)

/-- R41, R45: the contribution of stop `s` and key `k` is live. -/
def Une.live (p : Ptu) (u : Une) (s k : Nat) : Bool :=
  match u.stop s with
  | .invalid _ => false
  | .valid e =>
    u.isOn s && atTouch e.touch (u.heldKey e.division k) && (u.target p e k).isSome &&
      (!e.plucked || u.hasWindow s k)

/-! ## Demand counts (R48, R49) -/

/-- The unit with the demand count of a pipe replaced. -/
def Une.withCount (r i n : Nat) (u : Une) : Une :=
  { u with demand := put u.demand r (put (nth u.demand r (Vector.replicate 97 0)) i n) }

/-- The unit with the direct flag of a pipe replaced. -/
def Une.withDirect (r i : Nat) (v : Bool) (u : Une) : Une :=
  { u with direct := put u.direct r (put (nth u.direct r (Vector.replicate 97 false)) i v) }

/-- The message of a pipe whose request changes, sent only while its chamber is unmuted (R49). -/
def Une.pipeRequest (on : Bool) (r i : Nat) (u : Une) : List UneMsg :=
  match u.rank r with
  | .invalid _ => []
  | .valid e => if u.muted e.chamber then [] else [.pipe (request on (e.firstOut + i))]

/-- R48, R49: one reason more for a pipe. -/
def Une.raisePipe (r i : Nat) (u : Une) : Une × List UneMsg :=
  (u.withCount r i (u.count r i + 1), if u.count r i = 0 then u.pipeRequest true r i else [])

/-- R48, R49: one reason fewer for a pipe. -/
def Une.lowerPipe (r i : Nat) (u : Une) : Une × List UneMsg :=
  (u.withCount r i (u.count r i - 1), if u.count r i = 1 then u.pipeRequest false r i else [])

/-- R46: a begin (true) or an end (false) is passed on by its target. -/
def Une.pass (begins : Bool) (t : Target) (u : Une) : Une × List UneMsg :=
  match t with
  | .pipe r i => if begins then u.raisePipe r i else u.lowerPipe r i
  | .note unit i mode => (u, [.perc begins unit i mode])
  | .trap c => (u, [.trap begins c])
  | .trem t => (u, [.trem begins t])

/-- A begin or an end on a target that may be absent. -/
def Une.passOn (begins : Bool) (t : Option Target) (u : Une) : Une × List UneMsg :=
  match t with
  | none => quiet u
  | some t => u.pass begins t

/-! ## The Pizzicato List (R50 to R52) -/

/-- The list without the entry of a pair. -/
def Une.dropWindow (s k : Nat) (u : Une) : Une :=
  { u with pizz := u.pizz.filter (fun z => !(z.stop == s && z.key == k)) }

/-- The target on which the window of a pair began (R38). -/
def Une.windowTarget (p : Ptu) (s k : Nat) (u : Une) : Option Target :=
  match u.stop s with
  | .invalid _ => none
  | .valid e => u.target p e k

/-- R51: the entry of a pair is removed and its contribution ended. -/
def Une.endWindow (p : Ptu) (s k : Nat) (u : Une) : Une × List UneMsg :=
  Une.passOn false (u.windowTarget p s k) (u.dropWindow s k)

/-- The list's capacity (3.5). -/
def pizzCapacity : Nat := 64

/-- R52: with the list full, the oldest window ends. -/
def Une.makeRoom (p : Ptu) (u : Une) : Une × List UneMsg :=
  if u.pizz.length < pizzCapacity then quiet u
  else
    match u.pizz with
    | [] => quiet u
    | z :: _ => u.endWindow p z.stop z.key

/-- R50, R52: an entry is added at the tail and its contribution begun. -/
def Une.addWindow (p : Ptu) (s k : Nat) (expiry : Tick) (t : Target) (u : Une) :
    Une × List UneMsg :=
  andThen (Une.makeRoom p)
    (fun u => Une.pass true t { u with pizz := u.pizz ++ [⟨s, k, expiry, false⟩] }) u

/-- R51: the first entry in list order whose expiry has been reached expires. -/
def Une.pizzicatoExpiry (p : Ptu) (u : Une) : Une × List UneMsg :=
  match u.pizz.find? (fun z => z.reached) with
  | none => quiet u
  | some z => u.endWindow p z.stop z.key

/-- R1: the entries whose expiry is this tick are marked reached. -/
def Une.tick (now : Tick) (u : Une) : Une :=
  { u with pizz := u.pizz.map (fun z => { z with reached := z.reached || z.expiry == now }) }

/-! ## Key events (R43) -/

/-- R43: the event moves the key onto a stop's touch level. -/
def arrives (touch : Row) (old new : Touch) : Bool :=
  match touch, old, new with
  | .first, .up, .first => true
  | .second, .first, .second => true
  | _, _, _ => false

/-- R43: the event moves the key off a stop's touch level. -/
def leaves (touch : Row) (old new : Touch) : Bool :=
  match touch, old, new with
  | .first, .first, .up => true
  | .second, .second, .first => true
  | _, _, _ => false

/-- R43: key `k` arrives at touch for stop `s`. -/
def Une.arrive (p : Ptu) (s k : Nat) (expiry : Tick) (e : StopEntry) (u : Une) :
    Une × List UneMsg :=
  if u.isOn s then
    match u.target p e k with
    | none => quiet u
    | some t => if e.plucked then u.addWindow p s k expiry t else u.pass true t
  else quiet u

/-- A contribution that is live while its key is at touch ends: by its window for a PIZZICATO stop. -/
def Une.endPair (p : Ptu) (s k : Nat) (e : StopEntry) (u : Une) : Une × List UneMsg :=
  if e.plucked then (if u.hasWindow s k then u.endWindow p s k else quiet u)
  else Une.passOn false (u.target p e k) u

/-- R43: what one stop does with a key-touch event of its division. -/
def Une.stopKey (p : Ptu) (d k : Nat) (old new : Touch) (expiry : Tick) (s : Nat) (u : Une) :
    Une × List UneMsg :=
  match u.stop s with
  | .invalid _ => quiet u
  | .valid e =>
    if e.division = d ∧ e.kind ≠ .tremulant then
      if arrives e.touch old new then u.arrive p s k expiry e
      else if leaves e.touch old new ∧ u.isOn s then u.endPair p s k e
      else quiet u
    else quiet u

/-- The unit with the held-key image of a key replaced. -/
def Une.withHeld (d k : Nat) (t : Touch) (u : Une) : Une :=
  { u with heldKeys := put u.heldKeys d (put (nth u.heldKeys d (Vector.replicate 61 .up)) k t) }

/-- R43: a key-touch event; a window that it adds ends at `expiry`. -/
def Une.keyTouch (p : Ptu) (d k : Nat) (old new : Touch) (expiry : Tick) (u : Une) :
    Une × List UneMsg :=
  visit (List.range 256) (Une.stopKey p d k old new expiry) (u.withHeld d k new)

/-! ## Stop events (R44, R45) and withdraw and reapply (R57 to R60) -/

/-- Every live contribution of stop `s` with entry `e` begins anew at its held keys, PIZZICATO ones
not (R44 ON, R57 step 3). -/
def Une.beginStop (p : Ptu) (f : Efu) (e : StopEntry) (u : Une) : Une × List UneMsg :=
  match e.kind with
  | .tremulant => Une.passOn true (tremTarget f e) u
  | _ =>
    if e.plucked then quiet u
    else
      visit (keysOf e.division)
        (fun k u =>
          if atTouch e.touch (u.heldKey e.division k) then Une.passOn true (u.target p e k) u
          else quiet u)
        u

/-- Every live contribution of stop `s` with entry `e` ends, by ascending key (R44 OFF, R57
step 1). -/
def Une.endStop (p : Ptu) (f : Efu) (s : Nat) (e : StopEntry) (u : Une) : Une × List UneMsg :=
  match e.kind with
  | .tremulant => Une.passOn false (tremTarget f e) u
  | _ =>
    visit (keysOf e.division)
      (fun k u =>
        if atTouch e.touch (u.heldKey e.division k) then u.endPair p s k e else quiet u)
      u

/-- R51, stop OFF: every window of a PIZZICATO stop ends, in list order (assumption 7). -/
def Une.endWindows (p : Ptu) (s : Nat) (u : Une) : Une × List UneMsg :=
  visit ((u.pizz.filter (fun z => z.stop == s)).map Pizz.key) (fun k u => u.endWindow p s k) u

/-- R44, R45: a stop event. One that names the state the image holds changes nothing (R42). -/
def Une.stopEvent (p : Ptu) (f : Efu) (s : Nat) (on : Bool) (u : Une) : Une × List UneMsg :=
  if u.isOn s = on then quiet u
  else
    let u' := { u with stopOn := put u.stopOn s on }
    match u.stop s with
    | .invalid _ => quiet u'
    | .valid e =>
      if on then u'.beginStop p f e
      else if e.plucked then u'.endWindows p s
      else u'.endStop p f s e

/-- R58, Withdraw and Reapply of one stop: nothing for an invalid stop or one that is OFF. -/
def Une.ifOn (s : Nat) (g : StopEntry → Une → Une × List UneMsg) (u : Une) : Une × List UneMsg :=
  match u.stop s with
  | .invalid _ => quiet u
  | .valid e => if u.isOn s then g e u else quiet u

/-- The live contributions of stop `s` are ended. -/
def Une.withdrawStop (p : Ptu) (f : Efu) (s : Nat) : Une → Une × List UneMsg :=
  Une.ifOn s (fun e => Une.endStop p f s e)

/-- The contributions of stop `s` that are live under the tables as they stand are begun. -/
def Une.reapplyStop (p : Ptu) (f : Efu) (s : Nat) : Une → Une × List UneMsg :=
  Une.ifOn s (fun e => Une.beginStop p f e)

/-- The stop plays target number `t` of kind `kind` (R39, R59, R60). -/
def StopEntry.plays (kind : StopKind) (t : Nat) (e : StopEntry) : Bool :=
  e.kind = kind ∧ e.target = t

/-- Work on every stop that plays a target, ascending. -/
def Une.eachStopOf (kind : StopKind) (t : Nat) (g : Nat → Une → Une × List UneMsg) :
    Une → Une × List UneMsg :=
  visit (List.range 256) fun s u =>
    match u.stop s with
    | .invalid _ => quiet u
    | .valid e => if e.plays kind t then g s u else quiet u

/-- R60, Withdraw, over the stops that play a target. -/
def Une.withdraw (p : Ptu) (f : Efu) (kind : StopKind) (t : Nat) : Une → Une × List UneMsg :=
  Une.eachStopOf kind t (Une.withdrawStop p f)

/-- R60, Reapply, over the same stops in the same order. -/
def Une.reapply (p : Ptu) (f : Efu) (kind : StopKind) (t : Nat) : Une → Une × List UneMsg :=
  Une.eachStopOf kind t (Une.reapplyStop p f)

/-- R58: a Stop Table load that is taken. -/
def Une.loadStop (p : Ptu) (f : Efu) (s : Nat) (new : Slot StopEntry) : Une → Une × List UneMsg :=
  andThen (Une.withdrawStop p f s)
    (fun u => Une.reapplyStop p f s { u with stops := put u.stops s new })

/-! ## Direct flags (R54, R55) -/

/-- The pipes of a rank that is valid, ascending. -/
def Une.pipesOf (u : Une) (r : Nat) : List Nat :=
  match u.rank r with
  | .invalid _ => []
  | .valid e => List.range e.count

/-- A direct flag that is set is cleared, with its reason. -/
def Une.clearDirect (r i : Nat) (u : Une) : Une × List UneMsg :=
  if u.directFlag r i then Une.lowerPipe r i (u.withDirect r i false) else quiet u

/-- A direct flag that is clear is set, with its reason. -/
def Une.setDirect (r i : Nat) (u : Une) : Une × List UneMsg :=
  if u.directFlag r i then quiet u else Une.raisePipe r i (u.withDirect r i true)

/-- Every set direct flag of a rank is cleared, ascending. -/
def Une.clearRank (r : Nat) (u : Une) : Une × List UneMsg :=
  visit (u.pipesOf r) (Une.clearDirect r) u

/-- R55: every direct flag that is set is cleared, in rank and pipe order. -/
def Une.silenceDirect : Une → Une × List UneMsg := visit (List.range 32) Une.clearRank

/-- R59: a Rank Table load that is taken. -/
def Une.loadRank (p : Ptu) (f : Efu) (r : Nat) (new : Slot RankEntry) : Une → Une × List UneMsg :=
  andThen (Une.withdraw p f .rank r)
    (andThen (Une.clearRank r)
      (fun u =>
        Une.reapply p f .rank r
          { u with ranks := put u.ranks r new
                   demand := put u.demand r (Vector.replicate 97 0)
                   direct := put u.direct r (Vector.replicate 97 false) }))

/-! ## Mute (R56) -/

/-- The unit with a chamber's mute flag replaced. -/
def Une.withMute (ch : Chamber) (muted : Bool) (u : Une) : Une :=
  match ch with
  | .main => { u with muteMain := muted }
  | .solo => { u with muteSolo := muted }

/-- The logical outputs of the wanted pipes of the valid ranks of a chamber, in rank and pipe
order. -/
def Une.wantedOutputs (ch : Chamber) (u : Une) : List Nat :=
  (List.range 32).flatMap fun r =>
    match u.rank r with
    | .invalid _ => []
    | .valid e =>
      if e.chamber = ch then
        ((List.range e.count).filter (fun i => 0 < u.count r i)).map (e.firstOut + ·)
      else []

/-- R56: a change of a chamber's mute flag: its wanted pipes' requests, then the notice to the PTU. -/
def Une.setMute (ch : Chamber) (muted : Bool) (u : Une) : Une × List UneMsg :=
  if u.muted ch = muted then quiet u
  else
    (u.withMute ch muted,
      (u.wantedOutputs ch).map (fun o => UneMsg.pipe (request (!muted) o)) ++ [.mute ch muted])

/-! ## Searches (R39) -/

/-- R39: the lowest valid stop at or above `start` that references the target. -/
def Une.search (kind : StopKind) (t start : Nat) (u : Une) : Option Nat :=
  (List.range 256).find? fun s =>
    start ≤ s && match u.stop s with
      | .invalid _ => false
      | .valid e => e.plays kind t

end Sys2Proof.Machine
end

