-- ==== Sys2Proof/Machine/Route.lean ====
section
/-! DEFINITION. How the messages of one unit reach another (section 3.2 of the scope file): the state
with one unit replaced, and each unit's work carried out with its messages passed on in order. -/

namespace Sys2Proof.Machine

/-! ## One unit replaced -/

def State.withTick (x : Tick) (s : State) : State := { s with tick := x }
def State.withSettings (x : Settings) (s : State) : State := { s with settings := x }
def State.withIsu (x : Isu) (s : State) : State := { s with isu := x }
def State.withUne (x : Une) (s : State) : State := { s with une := x }
def State.withPtu (x : Ptu) (s : State) : State := { s with ptu := x }
def State.withEfu (x : Efu) (s : State) : State := { s with efu := x }
def State.withRgu (x : Rgu) (s : State) : State := { s with rgu := x }
def State.withMsu (x : Msu) (s : State) : State := { s with msu := x }
def State.withOmu (x : Omu) (s : State) : State := { s with omu := x }
def State.withFiu (x : Fiu) (s : State) : State := { s with fiu := x }
def State.withCmu (x : Cmu) (s : State) : State := { s with cmu := x }
def State.withFree (x : Nat) (s : State) : State := { s with free := x }

/-! ## Requests and causes -/

/-- Requests reach the OMU, in order. -/
def State.requests (rs : List Req) (s : State) : State := s.withOmu (s.omu.takeAll rs)

/-- A cause is raised in the CMU (R173). -/
def State.raise (r : Raise) (s : State) : State := s.withCmu (s.cmu.raise r)

/-- Causes raised in order. -/
def State.raises (rs : List Raise) (s : State) : State := rs.foldl (fun s r => s.raise r) s

/-! ## PTU and EFU -/

/-- The PTU's work, with its requests. -/
def State.ptuDo (f : Ptu → Ptu × List Req) (s : State) : State :=
  (s.withPtu (f s.ptu).1).requests (f s.ptu).2

/-- The EFU's work, with its requests. -/
def State.efuDo (f : Efu → Efu × List Req) (s : State) : State :=
  (s.withEfu (f s.efu).1).requests (f s.efu).2

/-! ## UNE -/

/-- A message of the UNE reaches its unit (R46, R49, R56). -/
def State.uneMsg (m : UneMsg) (s : State) : State :=
  match m with
  | .pipe r => s.requests [r]
  | .perc begins u i mode => s.ptuDo (Ptu.percMessage begins u i mode)
  | .trap begins c => s.ptuDo (Ptu.trapMessage begins c)
  | .trem begins t => s.efuDo (Efu.tremMessage begins t)
  | .mute ch muted => s.ptuDo (Ptu.muteNotice ch muted)

/-- The UNE's messages in order. -/
def State.uneMsgs (ms : List UneMsg) (s : State) : State := ms.foldl (fun s m => s.uneMsg m) s

/-- The UNE's work on the tables as they stand, with its messages passed on in order. -/
def State.uneDo (f : Ptu → Efu → Une → Une × List UneMsg) (s : State) : State :=
  (s.withUne (f s.ptu s.efu s.une).1).uneMsgs (f s.ptu s.efu s.une).2

/-- R50: the tick at which a window added now ends. -/
def State.windowExpiry (s : State) : Tick := s.tick + BitVec.ofNat 32 (4 * s.settings.pizzicato)

/-- R134: the tick at which a settling begun now ends. -/
def State.settleEnd (s : State) : Tick := s.tick + BitVec.ofNat 32 (4 * s.settings.settle)

/-- R43: a key-touch event reaches the UNE. -/
def State.keyEvent (d k : Nat) (old new : Touch) (s : State) : State :=
  s.uneDo fun p _ => Une.keyTouch p d k old new s.windowExpiry

/-- R44: a stop event reaches the UNE. -/
def State.stopEvent (st : Nat) (on : Bool) (s : State) : State :=
  s.uneDo fun p f => Une.stopEvent p f st on

/-! ## RGU -/

/-- A wait set without the entry of a board that is (`sent`) on the line or still in the queue. -/
def Reply.unwait (board : Nat) (sent : Bool) (r : Reply) : Reply :=
  { r with waits := r.waits.filter (fun w => !(w.board == board && w.sent == sent)) }

/-- Every wait set without that entry (R167). -/
def Fiu.unwait (board : Nat) (sent : Bool) (f : Fiu) : Fiu :=
  { f with replies := f.replies.map (Reply.unwait board sent) }

/-- A message of the RGU reaches its unit. -/
def State.rguMsg (m : RguMsg) (s : State) : State :=
  match m with
  | .stop st on => s.stopEvent st on
  | .gone b => s.withFiu (s.fiu.unwait b false)
  | .raise r => s.raise r

/-- The RGU's messages in order. -/
def State.rguMsgs (ms : List RguMsg) (s : State) : State := ms.foldl (fun s m => s.rguMsg m) s

/-- The RGU's work with the ISU as it stands, with its messages passed on in order. -/
def State.rguDo (f : Isu → Rgu → Rgu × List RguMsg) (s : State) : State :=
  (s.withRgu (f s.isu s.rgu).1).rguMsgs (f s.isu s.rgu).2

/-! ## MSU -/

/-- The MSU's work, with its causes. -/
def State.msuDo (f : Msu → Msu × List Raise) (s : State) : State :=
  (s.withMsu (f s.msu).1).raises (f s.msu).2

/-- The lock mask (R126). -/
def State.locked (s : State) (level : Nat) : Bool := s.settings.lockMask.getLsbD level

/-- The entry of a table as READ ENTRY returns it and a commit stores it (R170, R181). -/
def State.entryBytes (s : State) (t : TableId) (i : Nat) : List Byte :=
  match t with
  | .board => (s.isu.board i).entry.encode BoardEntry.encode
  | .stop => (s.une.stop i).encode StopEntry.encode
  | .rank => (s.une.rank i).encode RankEntry.encode
  | .perc => (s.ptu.unit i).entry.encode PercEntry.encode
  | .trap => (s.ptu.trap i).entry.encode TrapEntry.encode
  | .stud => encodeStud (nth s.ptu.studs i none)
  | .trem => (s.efu.trem i).entry.encode TremEntry.encode
  | .expr => (s.efu.expr i).entry.encode ExprEntry.encode
  | .piston => (nth s.rgu.pistons i .none).encode
  | .settings => s.settings.encode
  | .output => (s.omu.entry i).encode MapEntry.encode

/-- Block `b` of a table, formed from its working entries (R141, R149, R182). -/
def State.tableBlock (s : State) (t : TableId) (b : Nat) : List Byte :=
  let indices := ((List.range t.perBlock).map (fun j => b * t.perBlock + j)).filter (· < t.size)
  formBlock markerTable t.code b (indices.flatMap (s.entryBytes t))

/-- Configuration block `n`, counted from the start of the region (R149). -/
def State.configBlock (s : State) (n : Nat) : List Byte :=
  match tableOfBlock (configStart + n) with
  | none => blankImage
  | some t => s.tableBlock t (configStart + n - t.firstBlock)

/-- A read of the store (R146); before START DONE it is answered blank (R151). -/
def State.readStore (block : Nat) (s : State) : Option (List Byte) × State :=
  if s.cmu.started then
    let r := s.msu.read block
    (r.1, (s.withMsu r.2.1).raises r.2.2)
  else (none, s)

/-- The job's blocks, the engine's next head and the job's end, after a change of the queue. -/
def State.storeAdvance (s : State) : State := s.msuDo (Msu.advance s.configBlock s.locked)

/-- A write request from the RGU (R143): none where it is refused for want of room, during a RESTART
drain (R154) or before START DONE (R151). -/
def State.requestWrite (w : Write) (s : State) : Option State :=
  if s.msu.drain || !s.cmu.started then none
  else (s.msu.enqueue w).map (fun m => (s.withMsu m).storeAdvance)

/-! ## Captures and recalls (R127, R128, R130) -/

/-- The scope of a memory (R125): the stops of its division, or every stop. -/
def State.inScope (s : State) (memory st : Nat) : Bool :=
  if memory < 50 then
    match s.une.stop st with
    | .invalid _ => false
    | .valid e => e.division = memory / 10
  else true

/-- R127: a capture of a memory of the current level. -/
def State.capture (memory : Nat) (s : State) : Result × State :=
  if s.locked s.rgu.level then (.locked, s.raise (.captureRefused .locked))
  else
    let image := formRecord s.rgu.level memory (fun st => s.inScope memory st && s.rgu.isOn st)
    match s.requestWrite ⟨memoryBlock s.rgu.level memory, image, .capture⟩ with
    | none => (.busy, s.raise (.captureRefused .busy))
    | some s' => (.done, s')

/-- R128: the sequencer position after a recall of a memory. -/
def Rgu.notePosition (memory : Nat) (r : Rgu) : Rgu :=
  if memory < 50 then r else { r with position := some (memory - 50) }

/-- R128: the stops of a memory's scope are set from a record. -/
def State.applyRecord (memory : Nat) (image : List Byte) (s : State) : State :=
  s.rguDo fun i =>
    Rgu.setStops i (fun st => if s.inScope memory st then some (recordBit image st) else none)

/-- R128: a recall of a memory of the current level; true where its record was blank. -/
def State.recall (memory : Nat) (s : State) : Bool × State :=
  let r := s.readStore (memoryBlock s.rgu.level memory)
  let s' := r.2.withRgu (r.2.rgu.notePosition memory)
  match r.1 with
  | none => (true, s')
  | some image => (false, s'.applyRecord memory image)

/-- R129: a cancel of a division, or of all stops for none. -/
def State.cancel (division : Option Nat) (s : State) : State :=
  s.rguDo fun i =>
    Rgu.setStops i fun st =>
      match division with
      | none => some false
      | some d =>
        match s.une.stop st with
        | .invalid _ => none
        | .valid e => if e.division = d then some false else none

/-- R124: a memory piston captures while SET is held and recalls otherwise. -/
def State.memoryPiston (memory : Nat) (s : State) : State :=
  if s.rgu.setHeld then (s.capture memory).2 else (s.recall memory).2

/-- R130: a sequencer step, ignored while SET is held (R124). -/
def State.sequencer (next : Bool) (s : State) : State :=
  if s.rgu.setHeld then s
  else
    match sequencerStep next s.rgu.position with
    | none => s
    | some g => (s.recall (50 + g)).2

/-- R124: what a PRESS does by the input's function. -/
def State.pistonAct (fn : PistonFn) (s : State) : State :=
  match fn with
  | .none => s
  | .divisional d m => s.memoryPiston (d * 10 + m)
  | .general m => s.memoryPiston (50 + m)
  | .cancel d => s.cancel d
  | .set => s
  | .push => s.withRgu s.rgu.push
  | .pop => s.rguDo Rgu.pop
  | .next => s.sequencer true
  | .previous => s.sequencer false
  | .levelUp => s.withRgu s.rgu.levelUp
  | .levelDown => s.withRgu s.rgu.levelDown

/-- R124: a piston event. -/
def State.pistonEvent (p : Nat) (press : Bool) (s : State) : State :=
  let s' := s.withRgu (s.rgu.pressPiston p press)
  if press then s'.pistonAct (nth s'.rgu.pistons p .none) else s'

/-! ## ISU -/

/-- An event of the ISU reaches its unit. -/
def State.isuEvent (e : IsuEvent) (s : State) : State :=
  match e with
  | .key d k old new => s.keyEvent d k old new
  | .tab st on => s.rguDo fun _ => Rgu.tabEvent st on
  | .piston p press => s.pistonEvent p press
  | .stud st down => s.ptuDo (Ptu.studEvent st down)
  | .shoe sh p => s.efuDo (Efu.shoeEvent sh p)
  | .image _ first states firstContact => s.rguDo fun i => Rgu.tabImage i first states firstContact
  | .replaced b first count => s.rguDo fun _ => Rgu.boardReplaced b first count
  | .raise r => s.raise r

/-- The ISU's events in order. -/
def State.isuEvents (es : List IsuEvent) (s : State) : State := es.foldl (fun s e => s.isuEvent e) s

/-- The ISU's work, with its events passed on in order. -/
def State.isuDo (f : Isu → Isu × List IsuEvent) (s : State) : State :=
  (s.withIsu (f s.isu).1).isuEvents (f s.isu).2

end Sys2Proof.Machine
end

