-- ==== Sys2Proof/Machine/Return.lean ====
section
/-! DEFINITION. The FIU's return side and the taking of a command by the CMU: replies, wait sets, the
arbiter, the frames of the return line and of the chamber links, and the checks of R169. -/

namespace Sys2Proof.Machine

/-! ## Frames on the lines (R177) -/

/-- The bytes of a frame on a line, mark and CRC included (R177, R178). -/
def WireFrame.bytes (f : WireFrame) : List Byte := frameMark :: frameBytes f.kind f.address f.payload

/-- The REPLY frame of a reply (R167, R177). -/
def Reply.frame (r : Reply) (attention : Bool) : WireFrame where
  kind := kindReply
  address := r.address
  payload := r.id :: toByte r.result.code :: (if attention then 1 else 0) :: r.data

/-- The contacts of a board whose pending drive has value `v`, as a mask (R133, R177). -/
def DriveEntry.mask (e : DriveEntry) (firstStop : Nat) (v : Bool) : List Byte :=
  packBits 8 fun c => e.drives.any (fun d => d.stop == firstStop + c && d.value == v)

/-- The TAB DRIVE frame of a Tab Drive Queue entry: on-mask, then off-mask (R133, R177). -/
def DriveEntry.frame (e : DriveEntry) (firstStop : Nat) : WireFrame where
  kind := kindTabDrive
  address := toByte e.board
  payload := e.mask firstStop true ++ e.mask firstStop false

/-- The BOARD frame of a chamber link (R162, R177). -/
def BoardFrame.frame (f : BoardFrame) : WireFrame where
  kind := kindBoard
  address := toByte f.board
  payload := packBits 8 fun p => nth f.levels p false

/-- The frame on the return line. -/
def ReturnLine.frame? : ReturnLine → Option WireFrame
  | .idle => none
  | .reply r attention => some (r.frame attention)
  | .tab e firstStop => some (e.frame firstStop)
  | .stale f => some f

/-! ## Replies (R167) -/

/-- The Reply Queue's capacity (R167). -/
def replyCapacity : Nat := 16

/-- R167: the wait set of an ordered reply, the Tab Drive Queue entries that stand. -/
def Rgu.waitSet (r : Rgu) : List WaitItem := r.tabQueue.map (fun e => ⟨e.board, false⟩)

/-- R167: a reply joins the tail of the Reply Queue. -/
def State.placeReply (panel id : Byte) (ordered : Bool) (result : Result) (data : List Byte)
    (s : State) : State :=
  s.withFiu { s.fiu with
    replies := s.fiu.replies ++
      [⟨panel, id, result, data, ordered, if ordered then s.rgu.waitSet else []⟩] }

/-- R167: a reply whose wait set is empty is ready. -/
def Reply.ready (r : Reply) : Bool := r.waits.isEmpty

/-! ## The arbiter (R168) -/

/-- The wait-set items of a board's queue entry, marked sent. -/
def Reply.markSent (board : Nat) (r : Reply) : Reply :=
  { r with waits := r.waits.map (fun w => if w.board = board then { w with sent := true } else w) }

/-- The first stop of the TABS entry at an address. -/
def Isu.firstStop (i : Isu) (b : Nat) : Nat :=
  match (i.board b).entry with
  | .invalid _ => 0
  | .valid e => e.first

/-- R133, Sending: the head entry leaves the Tab Drive Queue and its frame starts. -/
def State.sendTabDrive (s : State) : State :=
  match s.rgu.tabQueue with
  | [] => s
  | e :: rest =>
    (s.withRgu { s.rgu with tabQueue := rest }).withFiu
      { s.fiu with line := .tab e (s.isu.firstStop e.board),
                   replies := s.fiu.replies.map (Reply.markSent e.board) }

/-- R154, R172: the drain has ended and the RESTART reply has been sent. -/
def State.afreshDue (s : State) : Bool :=
  s.cmu.restartPending && s.cmu.restartSent && s.msu.queue.isEmpty &&
    s.msu.job.outcome != .running

/-- R168: while the transmitter is IDLE, a head reply that is ready is sent, else a tab-drive
frame. The attention flag is sampled here (R167). Once the start afresh is due no frame starts: the
replies that then stand are not sent (R172, assumption 5). -/
def State.arbitrate (s : State) : State :=
  match s.fiu.line with
  | .idle =>
    if s.afreshDue then s
    else
      match s.fiu.replies with
      | [] => s.sendTabDrive
      | r :: _ =>
        if r.ready then s.withFiu { s.fiu with line := .reply r s.cmu.attention }
        else s.sendTabDrive
  | .reply _ _ => s
  | .tab _ _ => s
  | .stale _ => s

/-- R172: the reply of a RESTART that was taken. -/
def Reply.isRestart (r : Reply) : Bool := r.id == 0x43 && r.result == .queued

/-- R168: a reply frame completes; the reply leaves the queue. -/
def State.replyComplete (s : State) : State :=
  match s.fiu.line with
  | .reply r _ =>
    (s.withFiu { s.fiu with line := .idle, replies := s.fiu.replies.tail }).withCmu
      { s.cmu with restartSent := s.cmu.restartSent || r.isRestart }
  | .stale f => if f.kind = kindReply then s.withFiu { s.fiu with line := .idle } else s
  | .idle => s
  | .tab _ _ => s

/-- R134, R168: a tab-drive frame completes: the RGU takes its drives in ascending contact order, and
the entry leaves the wait sets. -/
def State.tabDriveComplete (s : State) : State :=
  match s.fiu.line with
  | .tab e _ =>
    let rgu := e.drives.foldl
      (fun r d => Rgu.driveSent s.isu s.tick s.settleEnd d r) s.rgu
    (s.withRgu rgu).withFiu { s.fiu.unwait e.board true with line := .idle }
  | .stale f => if f.kind = kindTabDrive then s.withFiu { s.fiu with line := .idle } else s
  | .idle => s
  | .reply _ _ => s

/-! ## Steps of the part -/

/-- The part is held stopped, and the step does nothing (R153); or the step is taken whole, and then
the arbiter chooses (R168, assumption 8). -/
def event (f : State → State) (s : State) : Host.Outcome State Fault Refusal :=
  if s.stopped then .next s else .next (f s).arbitrate

/-- The inbound frame has ended and the FIU hunts again (R166). -/
def State.frameEnded (s : State) : State := s.withFiu { s.fiu with rx := .hunting }

/-! ## Taking a command (R167, R169) -/

/-- What a command's owning unit makes of it: the state after it, the result and the data. -/
structure Answer where
  state : State
  result : Result
  data : List Byte

/-- R167: the reply that an answer makes is placed. -/
def Answer.reply (panel id : Byte) (ordered : Bool) (a : Answer) : State :=
  a.state.placeReply panel id ordered a.result a.data

/-- A refusal that changes nothing and carries no data (R180). -/
def refuse (r : Result) (s : State) : Answer := ⟨s, r, []⟩

/-- DONE without data. -/
def done (s : State) : Answer := ⟨s, .done, []⟩

/-- R169 steps 2 to 4. -/
def State.judge (lengthOk : Bool) (act : State → Answer) (s : State) : Answer :=
  if !lengthOk then refuse .length s
  else if !s.cmu.started || s.cmu.restartPending then refuse .busy s
  else act s

end Sys2Proof.Machine
end

