-- ==== Sys2Proof/Machine/Tables.lean ====
section
/-! DEFINITION. Table loads by their owners' rules (R170 and the rule of each table), the start-up
load (R151) and the start afresh (R153, R164, R172). -/

namespace Sys2Proof.Machine

/-! ## Loads that are taken -/

/-- R57, R60: withdraw, the owner's change, reapply. -/
def State.withReapply (kind : StopKind) (t : Nat) (change : State → State) (s : State) : State :=
  (change (s.uneDo (fun p f => Une.withdraw p f kind t))).uneDo
    (fun p f => Une.reapply p f kind t)

/-- R65. -/
def State.loadPerc (u : Nat) (new : Slot PercEntry) : State → State :=
  State.withReapply .percussion u (State.ptuDo (Ptu.onUnit u (PercUnit.load new)))

/-- R96. -/
def State.loadTrap (c : Nat) (new : Slot TrapEntry) : State → State :=
  State.withReapply .trap c (State.ptuDo (Ptu.onTrap c (fun m => TrapChan.load m new)))

/-- R110. -/
def State.loadTrem (t : Nat) (new : Slot TremEntry) : State → State :=
  State.withReapply .tremulant t (State.efuDo (Efu.onTrem t (Trem.load new)))

/-- R170: a Settings load; the enable set applies at once, from START DONE on (R176). -/
def State.loadSettings (new : Settings) (s : State) : State :=
  (s.withSettings new).withCmu
    { s.cmu with enable := if s.cmu.started then new.enable else s.cmu.enable }

/-- A load judged: RANGE where the owner's check refuses the entry, CONFLICT where `conflict` finds
one, else taken by `take`. -/
def judgeLoad {α : Type} (parsed : Option α) (conflict : α → Bool) (take : α → State) (s : State) :
    Result × State :=
  match parsed with
  | none => (.range, s)
  | some x => if conflict x then (.conflict, s) else (.done, take x)

/-- No load of the table conflicts. -/
def never {α : Type} (_ : α) : Bool := false

/-- A check of a valid entry; an invalid one is taken without checks. -/
def Slot.check {α : Type} (f : α → Bool) : Slot α → Bool
  | .invalid _ => false
  | .valid e => f e

/-- The owning unit checks an entry and takes or refuses it (R3, R24, R28, R64, R85, R97, R103, R111,
R123, R158, R170). -/
def State.ownerLoad (t : TableId) (i : Nat) (bs : List Byte) (s : State) : Result × State :=
  match t with
  | .board =>
    judgeLoad (parseSlot boardMask parseBoard bs) (Slot.check fun e => s.isu.coverageConflict i e)
      (fun x => s.isuDo (Isu.load i x)) s
  | .stop =>
    judgeLoad (parseSlot stopMask parseStop bs) never
      (fun x => s.uneDo (fun p f => Une.loadStop p f i x)) s
  | .rank =>
    judgeLoad (parseSlot rankMask parseRank bs) never
      (fun x => s.uneDo (fun p f => Une.loadRank p f i x)) s
  | .perc => judgeLoad (parseSlot percMask parsePerc bs) never (fun x => s.loadPerc i x) s
  | .trap => judgeLoad (parseSlot trapMask parseTrap bs) never (fun x => s.loadTrap i x) s
  | .stud => judgeLoad (parseStud bs) never (fun x => s.ptuDo (Ptu.loadStud i x)) s
  | .trem =>
    judgeLoad (parseSlot tremMask parseTrem bs) (Slot.check fun e => s.efu.slaveConflict i e)
      (fun x => s.loadTrem i x) s
  | .expr =>
    judgeLoad (parseSlot exprMask parseExpr bs) never (fun x => s.efuDo (Efu.loadExpr i x)) s
  | .piston =>
    judgeLoad (parsePiston bs) never (fun x => s.withRgu (s.rgu.loadPiston i x)) s
  | .settings => judgeLoad (parseSettings bs) never (fun x => s.loadSettings x) s
  | .output =>
    judgeLoad (parseSlot mapMask parseMap bs) (Slot.check fun e => s.omu.pointTaken i e)
      (fun x => s.withOmu (s.omu.loadEntry i x)) s

/-- R148: table loads are refused while a COMMIT runs. -/
def State.committing (s : State) : Bool :=
  s.msu.job.kind == .commit && s.msu.job.outcome == .running

/-- R170: LOAD ENTRY of an index: refused with BUSY while a COMMIT runs, else judged by the owner. -/
def State.loadEntry (t : TableId) (i : Nat) (bs : List Byte) (s : State) : Result × State :=
  if s.committing then (.busy, s) else s.ownerLoad t i bs

/-! ## The start-up load (R151) -/

/-- What the MSU finds in configuration block `b`. -/
def State.configJudgement (s : State) (b : Nat) : Judgement :=
  judgeBlock b (readBlock s.msu.array b)

/-- The image of a block found good. -/
def Judgement.image? : Judgement → Option (List Byte)
  | .blank => none
  | .failing => none
  | .good image => some image

/-- The bytes of entry `j` of a block's image (R141, R182). -/
def storedEntry (t : TableId) (image : List Byte) (j : Nat) : List Byte :=
  (image.drop (4 + j * t.entrySize)).take t.entrySize

/-- R151: entry `i`, stored at place `j` of block `b`, is delivered to its owner as a load; one that a
check refuses stays invalid (or NONE, or the default Settings) and raises STORE FAULT with its
block. That its other fields then read as zero bytes, and not as the stored ones, is the model's choice
(R151, R158, assumption 6). -/
def State.deliverEntry (t : TableId) (b : Nat) (image : List Byte) (i j : Nat) (s : State) : State :=
  match s.ownerLoad t i (storedEntry t image j) with
  | (.done, s') => s'
  | (_, _) => s.raise (.storeFault b)

/-- R141, R151: the entries of block `n` of a table, in index order. -/
def State.deliverBlock (t : TableId) (n : Nat) (image : List Byte) (s : State) : State :=
  ((List.range t.perBlock).filter (fun j => n * t.perBlock + j < t.size)).foldl
    (fun s j => s.deliverEntry t (t.firstBlock + n) image (n * t.perBlock + j) j) s

/-- R151: a table whose blocks are all good is delivered in index order; else it stays all-invalid
and STORE FAULT is raised with the last of its blocks that is blank or failing. -/
def State.deliverTable (t : TableId) (s : State) : State :=
  let found := (List.range t.blocks).map (fun n => (n, (s.configJudgement (t.firstBlock + n)).image?))
  match (found.filter (fun f => f.2.isNone)).getLast? with
  | some f => s.raise (.storeFault (t.firstBlock + f.1))
  | none => found.foldl (fun s f => s.deliverBlock t f.1 (f.2.getD [])) s

/-- R151: every block of the configuration region is blank, as in a new part. -/
def State.storeBlank (s : State) : Bool :=
  (List.range configBlocks).all (fun n => s.configJudgement (configStart + n) == .blank)

/-- R56, R62, R83: the mute flags and their copy are clear when "start unmuted" is yes. -/
def State.applyStartMute (s : State) : State :=
  if s.settings.startUnmuted then
    (s.withUne { s.une with muteMain := false, muteSolo := false }).withPtu
      { s.ptu with muteMain := false, muteSolo := false }
  else s

/-- R151: the start-up load, on a part at its reset values. -/
def State.startupLoad (s : State) : State :=
  if s.storeBlank then s
  else (TableId.regionOrder.foldl (fun s t => s.deliverTable t) s).applyStartMute

/-! ## Starting afresh -/

/-- Every unit at its reset value with the given array; frames that are let finish stay on their
lines. -/
def State.resetWith (array : List Host.Cell) (free : Nat) (mainLine soloLine : Option BoardFrame)
    (returnLine : ReturnLine) (s : State) : State :=
  { State.reset with
    msu := Msu.reset array
    omu := Omu.reset mainLine soloLine
    fiu := Fiu.reset returnLine
    free := free
    pending := s.pending
    inbound := s.inbound }

/-- R153, R164: power-up or the rise of RESET. A block in flight is cut, frames on the lines are
left incomplete, every unit takes its reset value. -/
def State.cutAndReset (s : State) : State :=
  s.resetWith (s.msu.cutArray s.free) (if s.msu.cutBlock.isSome then s.free + 1 else s.free)
    none none .idle

/-- R172: the frame on the return line completes without effect after a start afresh. -/
def ReturnLine.finish (l : ReturnLine) : ReturnLine :=
  match l.frame? with
  | none => .idle
  | some f => .stale f

/-- R164, R172: RESTART's start afresh: frames in progress complete, every unit takes its reset value,
and the start-up load runs. -/
def State.restartAfresh (s : State) : State :=
  State.startupLoad
    (s.resetWith s.msu.array s.free s.omu.main.line s.omu.solo.line s.fiu.line.finish)

/-- R151, R162, R164, R176: the end of the start-up load. -/
def State.startDone (s : State) : State :=
  if s.cmu.started then s
  else
    let cmu := s.cmu.raise .startDone
    let omu := { s.omu with main := s.omu.main.release, solo := s.omu.solo.release }
    (s.withCmu { cmu with started := true, enable := s.settings.enable }).withOmu
      (omu.sweep s.settings)

/-! ## Status (R175, R180) -/

/-- A detail field's byte; what it holds while the field is NONE is not stated (assumption 3). -/
def detailByte (free j : Nat) (d : Option Nat) : Byte :=
  match d with
  | none => Config.unstatedByte free j
  | some n => toByte n

/-- A byte of flags; R180 gives no value to the bits above the flags it names, and they are free
(assumption 3). -/
def statusFlags (free j : Nat) (flags : List Bool) : Byte :=
  flagByte flags ||| Config.unstatedByte free j <<< flags.length

/-- Four board states in one byte. -/
def Isu.stateByte (i : Isu) (j : Nat) : Byte :=
  toByte ((List.range 4).map (fun k => (i.board (4 * j + k)).state.code * 4 ^ k)).sum

/-- The 26 bytes of READ STATUS. -/
def State.status (s : State) : List Byte :=
  (List.range 8).map s.isu.stateByte ++
    [s.cmu.causes, s.cmu.enable, statusFlags s.free 6 s.cmu.presence,
      detailByte s.free 0 s.cmu.lastLost, detailByte s.free 1 s.cmu.lastBack,
      detailByte s.free 2 s.cmu.lastTabFault,
      detailByte s.free 3 (s.cmu.lastRefusal.map Refused.code),
      detailByte s.free 4 (s.cmu.lastFaulted.map (· / 256)),
      detailByte s.free 5 (s.cmu.lastFaulted.map (· % 256)),
      toByte s.rgu.level, toByte s.msu.engine.code, toByte s.msu.queue.length,
      toByte s.msu.job.kind.code] ++
    wordBytes s.msu.job.next ++
    [toByte s.msu.job.outcome.code, statusFlags s.free 7 [s.une.muteMain, s.une.muteSolo],
      positionByte s.rgu.position]

end Sys2Proof.Machine
end

