-- ==== Sys2Proof/Machine/Taking.lean ====
section
/-! DEFINITION. The taking of frames by the part: a FILL ENTRIES in progress, between whose loads other
events may come (R171), the commands, which wait for its end (R167), and what the part does while no
command waits: the bytes of the inbound line (R166) and the loads of a fill. -/

namespace Sys2Proof.Machine

/-! ## A fill in progress (R171) -/

/-- The CMU's fill in progress, or none. -/
def State.withFill (s : State) (f : Option Fill) : State := s.withCmu { s.cmu with fill := f }

/-- R171: the next load of a fill. It ends the fill where it is the last or is refused, and the answer
is then the fill's: the load's result and the number of entries done. -/
def State.fillLoad (f : Fill) (s : State) : Answer :=
  match s.loadEntry f.table f.next f.entry with
  | (.done, t) =>
    if f.more = 0 then ⟨t.withFill none, .done, wordBytes (f.done + 1)⟩
    else
      ⟨t.withFill (some { f with next := f.next + 1, done := f.done + 1, more := f.more - 1 }),
        .done, []⟩
  | (r, t) => ⟨t.withFill none, r, wordBytes f.done⟩

/-- R167, R171: the reply of FILL ENTRIES is placed when the fill has ended. -/
def Answer.replyFill (panel : Byte) (a : Answer) : State :=
  if a.state.cmu.fill.isSome then a.state else a.reply panel 0x03 false

/-- One load of the fill in progress; none in progress changes nothing. -/
def State.advanceFill (s : State) : State :=
  match s.cmu.fill with
  | none => s
  | some f => ((s.fillLoad f).replyFill f.panel).arbitrate

/-- That many loads of the fill in progress, one after another. -/
def State.advanceFills : Nat → State → State
  | 0, s => s
  | n + 1, s => State.advanceFills n s.advanceFill

/-- R171: the fill in progress is carried to its end. -/
def State.finishFill (s : State) : State :=
  match s.cmu.fill with
  | none => s
  | some f => s.advanceFills (f.more + 1)

/-! ## Taking a command (R167, R169) -/

/-- R167, R171: a command frame is handed on when no fill is in progress, and taken when the Reply Queue
has a free place; else it is discarded with FRAME ERROR. -/
def State.handOn (take : State → State) (s : State) : State :=
  let t := s.finishFill
  if t.fiu.replies.length < replyCapacity then take t.frameEnded
  else t.frameEnded.raise .frameError

/-- R167: a command that is taken is carried out whole and answered. -/
def State.takeCommand (panel id : Byte) (ordered : Bool) (judged : State → Answer) : State → State :=
  State.handOn fun s => (judged s).reply panel id ordered

/-- A command frame whose identifier names a command: `length` is the number of its parameter bytes
(R179). -/
def command (panel id : Byte) (ordered : Bool) (params : List Byte) (length : Nat)
    (act : State → Answer) : State → Host.Outcome State Fault Refusal :=
  event (State.takeCommand panel id ordered (State.judge (params.length == length) act))

/-! ## While no command waits -/

/-- What the part does when no command waits (assumptions 10, 16, 19): it takes the next byte of the
inbound line, and answers the command or event that a frame ending with it makes; with no byte there, it
makes the next load of the fill in progress; with neither, it idles. A byte that comes after the gap that
ends its frame is taken after it. A part that is held stopped takes nothing. -/
def State.unasked (s : State) : State × Option Instr :=
  match s.inbound with
  | [] => (if s.stopped then s else s.advanceFill, none)
  | b :: rest =>
    if s.stopped then ({ s with inbound := rest }, none)
    else
      match s.fiu.rx.gap with
      | some bytes => (s, some (.byteGap bytes))
      | none =>
        let f := s.fiu.takeByte b
        ({ s with inbound := rest, fiu := f.1 }, f.2)

end Sys2Proof.Machine
end

