-- ==== Sys2Proof/Machine/LinkCommands.lean ====
section
/-! DEFINITION. The meanings of the management commands (R169, R172, R174, R175). -/

namespace Sys2Proof.Machine

/-- UNKNOWN_COMMAND (R169 step 1): answered UNKNOWN, with identifier 0 for an empty payload (R167). A
payload whose identifier names a command is no such frame. -/
def execUnknownCommand (panel : Byte) (payload : List Byte) :
    State → Host.Outcome State Fault Refusal :=
  event fun s =>
    if commandOf panel payload = .unknownCommand panel payload then
      s.takeCommand panel (payload.getD 0 0) false (refuse .unknown)
    else s

/-- READ_STATUS (R175). -/
def execReadStatus (panel : Byte) (ps : List Byte) : State → Host.Outcome State Fault Refusal :=
  command panel 0x40 false ps 0 fun s => ⟨s.withFree (s.free + 1), .done, s.status⟩

/-- ACKNOWLEDGE (R174). -/
def execAcknowledge (panel : Byte) (ps : List Byte) : State → Host.Outcome State Fault Refusal :=
  command panel 0x41 false ps 1 fun s => done (s.withCmu (s.cmu.acknowledge (ps.getD 0 0)))

/-- FORCE_CAUSE (R174). -/
def execForceCause (panel : Byte) (ps : List Byte) : State → Host.Outcome State Fault Refusal :=
  command panel 0x42 false ps 1 fun s => done (s.withCmu (s.cmu.force (ps.getD 0 0)))

/-- R154, R172: RESTART is pending and the MSU drains. -/
def State.setRestart (s : State) : State :=
  (s.withCmu { s.cmu with restartPending := true, restartSent := false }).withMsu
    { s.msu with drain := true }

/-- RESTART (R172). -/
def execRestart (panel : Byte) (ps : List Byte) : State → Host.Outcome State Fault Refusal :=
  command panel 0x43 false ps 0 fun s => ⟨s.setRestart, .queued, []⟩

end Sys2Proof.Machine
end

