-- ==== Sys2Proof/Machine/LinkEvents.lean ====
section
/-! DEFINITION. The meanings of the frame events of the inbound, return and chamber lines, of the
silence timers and of the refresh sweep. -/

namespace Sys2Proof.Machine

/-- BAD_FRAME (R166): the frame is discarded with FRAME ERROR. -/
def execBadFrame (bytes : List Byte) : State → Host.Outcome State Fault Refusal :=
  event fun s => if receive bytes = .bad then s.frameEnded.raise .frameError else s

/-- BYTE_GAP (R166): once 4 ticks have gone by since the last byte of an unfinished frame, the frame is
discarded with FRAME ERROR. The operand names the frame (assumption 19). -/
def execByteGap (bytes : List Byte) : State → Host.Outcome State Fault Refusal :=
  event fun s => if s.fiu.rx.gap = some bytes then s.frameEnded.raise .frameError else s

/-- SCAN_FRAME (R7): discarded before START DONE, else judged by the ISU, once no fill is in progress
(R171). -/
def execScanFrame (address : Byte) (payload : List Byte) :
    State → Host.Outcome State Fault Refusal :=
  event fun s =>
    let t := s.finishFill
    if t.cmu.started then t.frameEnded.isuDo (Isu.frame address.toNat payload) else t.frameEnded

/-- SILENCE_TIMER_EXPIRY (R6, R14). -/
def execSilenceTimerExpiry (board : Nat) : State → Host.Outcome State Fault Refusal :=
  event fun s => s.isuDo (Isu.silenceExpiry board)

/-- TAB_DRIVE_FRAME_COMPLETE (R134). -/
def execTabDriveFrameComplete : State → Host.Outcome State Fault Refusal :=
  event State.tabDriveComplete

/-- REPLY_FRAME_COMPLETE (R168). -/
def execReplyFrameComplete : State → Host.Outcome State Fault Refusal := event State.replyComplete

/-- BOARD_FRAME_COMPLETE (R162), where a frame is on the link. -/
def execBoardFrameComplete (link : Chamber) : State → Host.Outcome State Fault Refusal :=
  event fun s =>
    if (s.omu.link link).line.isSome then
      s.withOmu (s.omu.withLink link (s.omu.link link).complete)
    else s

/-- REFRESH_SWEEP (R163), once the refresh timer has run out. -/
def execRefreshSweep : State → Host.Outcome State Fault Refusal :=
  event fun s => if s.omu.refresh = some 0 then s.withOmu (s.omu.sweep s.settings) else s

end Sys2Proof.Machine
end

