-- ==== Sys2Proof/Machine/PlayCommands.lean ====
section
/-! DEFINITION. The meanings of the commands that act on play (R54 to R56, R61, R77, R94, R95, R106,
R118). -/

namespace Sys2Proof.Machine

/-- R94: a CUE command whose action byte is `action`; another byte names no action of the row and is
refused with RANGE. -/
def cueAct (action : Nat) (f : (Chamber → Bool) → TrapChan → TrapChan × List Req) (ps : List Byte)
    (s : State) : Answer :=
  if byteAt ps 4 = action then done (s.ptuDo (Ptu.cue (cueSet ps) f)) else refuse .range s

/-- CUE_TRIGGER (R94). -/
def execCueTrigger (panel : Byte) (ps : List Byte) : State → Host.Outcome State Fault Refusal :=
  command panel 0x20 false ps 5 (cueAct 0 (fun m => TrapChan.trigger m true) ps)

/-- CUE_HOLD_ON (R94). -/
def execCueHoldOn (panel : Byte) (ps : List Byte) : State → Host.Outcome State Fault Refusal :=
  command panel 0x20 false ps 5 (cueAct 1 TrapChan.holdOn ps)

/-- CUE_HOLD_OFF (R94). -/
def execCueHoldOff (panel : Byte) (ps : List Byte) : State → Host.Outcome State Fault Refusal :=
  command panel 0x20 false ps 5 (cueAct 2 TrapChan.holdOff ps)

/-- R77: a percussion unit's interval. -/
def setReiterationAct (ps : List Byte) (s : State) : Answer :=
  let u := byteAt ps 1
  let v := byteAt ps 2
  if byteAt ps 0 = 0 ∧ u < 8 ∧ (s.ptu.unit u).entry.entry?.isSome ∧ 10 ≤ v then
    done (s.withPtu (s.ptu.setUnitInterval u v))
  else refuse .range s

/-- SET_REITERATION (R77). -/
def execSetReiteration (panel : Byte) (ps : List Byte) : State → Host.Outcome State Fault Refusal :=
  command panel 0x21 false ps 3 (setReiterationAct ps)

/-- R95: a trap channel's interval. -/
def setTrapIntervalAct (ps : List Byte) (s : State) : Answer :=
  let c := byteAt ps 1
  let v := byteAt ps 2
  if byteAt ps 0 = 1 ∧ c < 32 ∧ (s.ptu.trap c).entry.entry?.isSome ∧ 10 ≤ v then
    done (s.withPtu (s.ptu.setTrapInterval c v))
  else refuse .range s

/-- SET_REITERATION_TRAP (R95). -/
def execSetReiterationTrap (panel : Byte) (ps : List Byte) :
    State → Host.Outcome State Fault Refusal :=
  command panel 0x21 false ps 3 (setTrapIntervalAct ps)

/-- R106. -/
def setTremulantAct (ps : List Byte) (s : State) : Answer :=
  let t := byteAt ps 0
  if t < 12 ∧ (s.efu.trem t).entry.entry?.isSome ∧ 10 ≤ byteAt ps 1 ∧ 10 ≤ byteAt ps 2 then
    done (s.withEfu (s.efu.setLengths t (byteAt ps 1) (byteAt ps 2)))
  else refuse .range s

/-- SET_TREMULANT (R106). -/
def execSetTremulant (panel : Byte) (ps : List Byte) : State → Host.Outcome State Fault Refusal :=
  command panel 0x22 false ps 3 (setTremulantAct ps)

/-- R118. -/
def assignShoeAct (ps : List Byte) (s : State) : Answer :=
  let x := byteAt ps 0
  let sh := byteAt ps 1
  if x < 2 ∧ sh < 4 ∧ (s.efu.expr x).entry.entry?.isSome then
    done (s.efuDo (Efu.assignShoe x sh))
  else refuse .range s

/-- ASSIGN_SHOE (R118). -/
def execAssignShoe (panel : Byte) (ps : List Byte) : State → Host.Outcome State Fault Refusal :=
  command panel 0x23 false ps 2 (assignShoeAct ps)

/-- R54: pipe `i` of rank `r` exists. -/
def Une.hasPipe (u : Une) (r i : Nat) : Bool :=
  r < 32 && match u.rank r with
    | .invalid _ => false
    | .valid e => i < e.count

/-- R54: a command on one pipe. -/
def pipeAct (f : Nat → Nat → Une → Une × List UneMsg) (ps : List Byte) (s : State) : Answer :=
  let r := byteAt ps 0
  let i := byteAt ps 1
  if s.une.hasPipe r i then done (s.uneDo fun _ _ => f r i) else refuse .range s

/-- SOUND_PIPE (R54). -/
def execSoundPipe (panel : Byte) (ps : List Byte) : State → Host.Outcome State Fault Refusal :=
  command panel 0x30 false ps 2 (pipeAct Une.setDirect ps)

/-- SILENCE_PIPE (R54). -/
def execSilencePipe (panel : Byte) (ps : List Byte) : State → Host.Outcome State Fault Refusal :=
  command panel 0x31 false ps 2 (pipeAct Une.clearDirect ps)

/-- SILENCE_DIRECT (R55). -/
def execSilenceDirect (panel : Byte) (ps : List Byte) : State → Host.Outcome State Fault Refusal :=
  command panel 0x32 false ps 0 fun s => done (s.uneDo fun _ _ => Une.silenceDirect)

/-- R56: the chamber of a mute command, and its new flag. -/
def muteAct (muted : Bool) (ps : List Byte) (s : State) : Answer :=
  match chamberOf (byteAt ps 0) with
  | none => refuse .range s
  | some ch => done (s.uneDo fun _ _ => Une.setMute ch muted)

/-- MUTE (R56). -/
def execMute (panel : Byte) (ps : List Byte) : State → Host.Outcome State Fault Refusal :=
  command panel 0x33 false ps 1 (muteAct true ps)

/-- UNMUTE (R56). -/
def execUnmute (panel : Byte) (ps : List Byte) : State → Host.Outcome State Fault Refusal :=
  command panel 0x34 false ps 1 (muteAct false ps)

/-- R61: the three steps of RELEASE ALL, in order. -/
def State.releaseAll (s : State) : State :=
  ((s.isuDo Isu.releaseAll).uneDo fun _ _ => Une.silenceDirect).ptuDo Ptu.releaseAll

/-- RELEASE_ALL (R61). -/
def execReleaseAll (panel : Byte) (ps : List Byte) : State → Host.Outcome State Fault Refusal :=
  command panel 0x35 false ps 0 fun s => done s.releaseAll

end Sys2Proof.Machine
end

