-- ==== Sys2Proof/Machine/PlayEvents.lean ====
section
/-! DEFINITION. The meanings of the timer events of the UNE, PTU, EFU and RGU. An event that is not due
does not occur (assumption 5). -/

namespace Sys2Proof.Machine

/-- PIZZICATO_EXPIRY (R51). -/
def execPizzicatoExpiry : State → Host.Outcome State Fault Refusal :=
  event fun s => s.uneDo (fun p _ => Une.pizzicatoExpiry p)

/-- PULSE_END (R69). -/
def execPulseEnd (unit note : Nat) : State → Host.Outcome State Fault Refusal :=
  event fun s => s.ptuDo (Ptu.onValidUnit unit fun _ e => PercUnit.pulseEnd e note)

/-- REST_END (R70). -/
def execRestEnd (unit note : Nat) : State → Host.Outcome State Fault Refusal :=
  event fun s => s.ptuDo (Ptu.onValidUnit unit fun muted e => PercUnit.restEnd muted e note)

/-- REITERATOR_BEAT (R76). -/
def execReiteratorBeat (unit : Nat) : State → Host.Outcome State Fault Refusal :=
  event fun s => s.ptuDo (Ptu.onValidUnit unit fun muted e => PercUnit.reiteratorBeat muted e)

/-- TRAP_PULSE_END (R90). -/
def execTrapPulseEnd (channel : Nat) : State → Host.Outcome State Fault Refusal :=
  event fun s => s.ptuDo (Ptu.onTrap channel TrapChan.pulseEnd)

/-- TRAP_REST_END (R90). -/
def execTrapRestEnd (channel : Nat) : State → Host.Outcome State Fault Refusal :=
  event fun s => s.ptuDo (Ptu.onTrap channel TrapChan.restEnd)

/-- TRAP_BEAT (R92, R93). -/
def execTrapBeat (channel : Nat) : State → Host.Outcome State Fault Refusal :=
  event fun s => s.ptuDo (Ptu.onTrap channel TrapChan.takeBeat)

/-- PHASE_END (R104, R105, R108). -/
def execPhaseEnd (tremulant : Nat) : State → Host.Outcome State Fault Refusal :=
  event fun s => s.efuDo (Efu.phaseEnd tremulant)

/-- STEP_END (R116, R117). -/
def execStepEnd (channel : Nat) : State → Host.Outcome State Fault Refusal :=
  event fun s => s.efuDo (Efu.stepEnd channel)

/-- SETTLE_EXPIRY (R136). -/
def execSettleExpiry : State → Host.Outcome State Fault Refusal :=
  event fun s => s.rguDo (fun i => Rgu.settleExpiry i s.tick)

end Sys2Proof.Machine
end

