-- ==== Sys2Proof/Machine/RegistrationCommands.lean ====
section
/-! DEFINITION. The meanings of the registration commands (R122, R125 to R129, R131, R137). -/

namespace Sys2Proof.Machine

/-- CAPTURE (R127). -/
def captureAct (ps : List Byte) (s : State) : Answer :=
  if 69 < byteAt ps 0 then refuse .range s
  else
    let r := s.capture (byteAt ps 0)
    ⟨r.2, r.1, []⟩

def execCapture (panel : Byte) (ps : List Byte) : State → Host.Outcome State Fault Refusal :=
  command panel 0x10 true ps 1 (captureAct ps)

/-- RECALL (R128): the reply tells whether the record was blank. -/
def recallAct (ps : List Byte) (s : State) : Answer :=
  if 69 < byteAt ps 0 then refuse .range s
  else
    let r := s.recall (byteAt ps 0)
    ⟨r.2, .done, [if r.1 then 1 else 0]⟩

def execRecall (panel : Byte) (ps : List Byte) : State → Host.Outcome State Fault Refusal :=
  command panel 0x11 true ps 1 (recallAct ps)

/-- CANCEL (R129). -/
def cancelAct (ps : List Byte) (s : State) : Answer :=
  let d := byteAt ps 0
  if d = 0xFF then done (s.cancel none)
  else if d ≤ 4 then done (s.cancel (some d))
  else refuse .range s

def execCancel (panel : Byte) (ps : List Byte) : State → Host.Outcome State Fault Refusal :=
  command panel 0x12 true ps 1 (cancelAct ps)

/-- POP (R131). -/
def execPop (panel : Byte) (ps : List Byte) : State → Host.Outcome State Fault Refusal :=
  command panel 0x13 true ps 0 fun s => done (s.rguDo Rgu.pop)

/-- SET_STOPS (R122, R180). -/
def setStopsAct (ps : List Byte) (s : State) : Answer :=
  if stopDigitsOk ps then done (s.rguDo fun i => Rgu.setStops i (stopOrder ps))
  else refuse .range s

def execSetStops (panel : Byte) (ps : List Byte) : State → Host.Outcome State Fault Refusal :=
  command panel 0x14 true ps 52 (setStopsAct ps)

/-- SELECT_LEVEL (R125). -/
def selectLevelAct (ps : List Byte) (s : State) : Answer :=
  if 31 < byteAt ps 0 then refuse .range s
  else done (s.withRgu { s.rgu with level := byteAt ps 0 })

def execSelectLevel (panel : Byte) (ps : List Byte) : State → Host.Outcome State Fault Refusal :=
  command panel 0x15 false ps 1 (selectLevelAct ps)

/-- The lock mask with a level's flag replaced (R126). -/
def Settings.withLock (level : Nat) (v : Bool) (st : Settings) : Settings :=
  { st with lockMask :=
      if v then st.lockMask ||| (1#32 <<< level) else st.lockMask &&& ~~~(1#32 <<< level) }

/-- R126: a level's lock flag is set or cleared with a write of the Settings block, which is refused
with BUSY, the flag keeping its value, for want of room. -/
def lockAct (v : Bool) (ps : List Byte) (s : State) : Answer :=
  let level := byteAt ps 0
  if 31 < level then refuse .range s
  else if s.locked level = v then done s
  else
    let s' := s.withSettings (s.settings.withLock level v)
    match s'.requestWrite ⟨TableId.settings.firstBlock, s'.tableBlock .settings 0, .settings⟩ with
    | none => refuse .busy s
    | some s'' => done s''

/-- LOCK_LEVEL (R126). -/
def execLockLevel (panel : Byte) (ps : List Byte) : State → Host.Outcome State Fault Refusal :=
  command panel 0x16 false ps 1 (lockAct true ps)

/-- UNLOCK_LEVEL (R126). -/
def execUnlockLevel (panel : Byte) (ps : List Byte) : State → Host.Outcome State Fault Refusal :=
  command panel 0x17 false ps 1 (lockAct false ps)

/-- CLEAR_TAB_FAULT (R137). -/
def execClearTabFault (panel : Byte) (ps : List Byte) : State → Host.Outcome State Fault Refusal :=
  command panel 0x18 false ps 1 fun s => done (s.withRgu (s.rgu.clearFault s.isu (byteAt ps 0)))

end Sys2Proof.Machine
end

