-- ==== Sys2Proof/Machine/StartEvents.lean ====
section
/-! DEFINITION. The meanings of START, START_DONE, START_AFRESH, POWER_LOSS and MS_STEP. -/

namespace Sys2Proof.Machine

/-- START (R153): work in progress ends, every unit takes its reset value, and the start-up load runs
(R151). -/
def execStart (s : State) : Host.Outcome State Fault Refusal := .next s.cutAndReset.startupLoad

/-- START_DONE (R151): the start-up load ends. -/
def execStartDone : State → Host.Outcome State Fault Refusal := event State.startDone

/-- START_AFRESH (R172), once it is due. -/
def execStartAfresh : State → Host.Outcome State Fault Refusal :=
  event fun s => if s.afreshDue then s.restartAfresh else s

/-- POWER_LOSS (R153, 11.4): work in progress ends and every unit is held stopped until START. -/
def execPowerLoss (s : State) : Host.Outcome State Fault Refusal :=
  .next { s.cutAndReset with stopped := true }

/-- One tick for the units whose timers count ticks, and for the lists whose expiries are ticks
(R1). -/
def State.tickUnits (s : State) : State :=
  (((s.withUne (s.une.tick s.tick)).withRgu (s.rgu.tick s.tick)).withPtu s.ptu.tick).withFiu
    s.fiu.tick

/-- One ms step for the units whose timers count ms steps. -/
def State.msUnits (s : State) : State :=
  (((s.withIsu s.isu.msStep).withPtu s.ptu.msStep).withEfu s.efu.msStep).withOmu s.omu.msStep

/-- R1: a tick; a tick whose count is a multiple of 4 is a ms step. -/
def State.tickStep (s : State) : State :=
  let s' := (s.withTick (s.tick + 1)).tickUnits
  if s'.tick.toNat % 4 = 0 then s'.msUnits else s'

/-- MS_STEP (R1). -/
def execMsStep : State → Host.Outcome State Fault Refusal := event State.tickStep

end Sys2Proof.Machine
end

