-- ==== Sys2Proof/Machine/StoreEvents.lean ====
section
/-! DEFINITION. The meanings of the ends of the array's operations (R144, R145). -/

namespace Sys2Proof.Machine

/-- An end of the operation that state `e` of the engine names, on the entry in flight. A part that is
held stopped, or an engine in another state, has no such end. -/
def engineEnd (e : Engine) (f : Write → State → State) (s : State) :
    Host.Outcome State Fault Refusal :=
  match s.msu.queue with
  | [] => event id s
  | w :: _ =>
    if s.stopped || s.msu.engine != e then event id s
    else if arrayBlocks ≤ w.block then .fault (.noSuchBlock w.block)
    else event (f w) s

/-- ERASE_END (R144). -/
def execEraseEnd (flaws : List (Nat × Byte)) : State → Host.Outcome State Fault Refusal :=
  engineEnd .erasing fun w s => s.withMsu (s.msu.eraseEnd flaws w)

/-- PROGRAM_END (R144). -/
def execProgramEnd (flaws : List (Nat × Byte)) : State → Host.Outcome State Fault Refusal :=
  engineEnd .programming fun w s => s.withMsu (s.msu.programEnd flaws w)

/-- VERIFY_END (R144, R145). -/
def execVerifyEnd : State → Host.Outcome State Fault Refusal :=
  engineEnd .verifying fun w s => s.msuDo (Msu.verifyEnd s.configBlock s.locked w)

end Sys2Proof.Machine
end

