-- ==== Sys2Proof/Machine/TableCommands.lean ====
section
/-! DEFINITION. The meanings of the table and store commands (R39, R149, R150, R170, R171). -/

namespace Sys2Proof.Machine

/-- The table that a table byte names. -/
def tableParam (ps : List Byte) : Option TableId := TableId.of (byteAt ps 0)

/-- R180: the length check of a command that carries an entry after `head` parameter bytes. A table
byte that names no table passes it. -/
def entryLengthOk (head : Nat) (ps : List Byte) : Bool :=
  !ps.isEmpty && match tableParam ps with
    | none => true
    | some t => ps.length == head + t.entrySize

/-- R170: the table and index of a command; none is refused with RANGE. -/
def tableIndex (ps : List Byte) : Option (TableId × Nat) :=
  (tableParam ps).bind fun t => if wordAt ps 1 < t.size then some (t, wordAt ps 1) else none

/-- LOAD_ENTRY (R170). -/
def loadEntryAct (ps : List Byte) (s : State) : Answer :=
  match tableIndex ps with
  | none => refuse .range s
  | some (t, i) =>
    let r := s.loadEntry t i (ps.drop 3)
    ⟨r.2, r.1, []⟩

def execLoadEntry (panel : Byte) (ps : List Byte) : State → Host.Outcome State Fault Refusal :=
  event (State.takeCommand panel 0x01 false
    (State.judge (entryLengthOk 3 ps) (loadEntryAct ps)))

/-- READ_ENTRY (R170). -/
def readEntryAct (ps : List Byte) (s : State) : Answer :=
  match tableIndex ps with
  | none => refuse .range s
  | some (t, i) => ⟨s, .done, ps.take 3 ++ s.entryBytes t i⟩

def execReadEntry (panel : Byte) (ps : List Byte) : State → Host.Outcome State Fault Refusal :=
  command panel 0x02 false ps 3 (readEntryAct ps)

/-- FILL_ENTRIES (R171): the command's own step ends with the first load; each load after it is a step
of its own (assumption 16). The reply always carries the number of entries done (R180). A span that
passes the table's end is refused with RANGE also when the count is 0 (assumption 15). -/
def fillEntriesAct (panel : Byte) (ps : List Byte) (s : State) : Answer :=
  match tableParam ps with
  | none => ⟨s, .range, wordBytes 0⟩
  | some t =>
    let first := wordAt ps 1
    let count := wordAt ps 3
    if t.size < first + count then ⟨s, .range, wordBytes 0⟩
    else if count = 0 then ⟨s, .done, wordBytes 0⟩
    else s.fillLoad ⟨panel, t, ps.drop 5, first, 0, count - 1⟩

def execFillEntries (panel : Byte) (ps : List Byte) : State → Host.Outcome State Fault Refusal :=
  event (State.handOn fun s =>
    (s.judge (entryLengthOk 5 ps) (fillEntriesAct panel ps)).replyFill panel)

/-- SEARCH_REFERENCES (R39); the stop byte of a search that finds nothing is not stated
(assumption 3). -/
def searchAct (ps : List Byte) (s : State) : Answer :=
  match StopKind.of (byteAt ps 0) with
  | none => refuse .range s
  | some kind =>
    if targetInRange kind (byteAt ps 1) then
      match s.une.search kind (byteAt ps 1) (byteAt ps 2) with
      | some st => ⟨s, .done, [1, toByte st]⟩
      | none => ⟨s.withFree (s.free + 1), .done, [0, Config.unstatedByte s.free 0]⟩
    else refuse .range s

def execSearchReferences (panel : Byte) (ps : List Byte) :
    State → Host.Outcome State Fault Refusal :=
  command panel 0x04 false ps 3 (searchAct ps)

/-- A bulk job is running (R148). -/
def State.jobRunning (s : State) : Bool := s.msu.job.outcome == .running

/-- COMMIT_TABLES (R149). A COMMIT has no source and no destination level, and both fields are set to 0
(assumption 37). -/
def commitAct (s : State) : Answer :=
  if s.jobRunning || s.msu.drain then refuse .busy s
  else ⟨s.msuDo (Msu.startJob s.configBlock s.locked .commit 0 0), .queued, []⟩

def execCommitTables (panel : Byte) (ps : List Byte) : State → Host.Outcome State Fault Refusal :=
  command panel 0x05 false ps 0 commitAct

/-- COPY_LEVEL (R150): RANGE, CONFLICT, BUSY, LOCKED, in that order. -/
def copyAct (ps : List Byte) (s : State) : Answer :=
  let source := byteAt ps 0
  let dest := byteAt ps 1
  if 31 < source ∨ 31 < dest then refuse .range s
  else if source = dest then refuse .conflict s
  else if s.jobRunning || s.msu.drain then refuse .busy s
  else if s.locked dest then refuse .locked s
  else ⟨s.msuDo (Msu.startJob s.configBlock s.locked .copy source dest), .queued, []⟩

def execCopyLevel (panel : Byte) (ps : List Byte) : State → Host.Outcome State Fault Refusal :=
  command panel 0x06 true ps 2 (copyAct ps)

end Sys2Proof.Machine
end

