-- ==== Sys2Proof/Machine/Dispatch.lean ====
section
/-! DEFINITION. Every command's meaning, one arm per row of the opcode table. -/

namespace Sys2Proof.Machine

def exec (i : Instr) (s : State) : Host.Outcome State Fault Refusal :=
  match i with
  | .start => Sys2Proof.Machine.execStart s
  | .startDone => Sys2Proof.Machine.execStartDone s
  | .badFrame bytes => Sys2Proof.Machine.execBadFrame bytes s
  | .byteGap bytes => Sys2Proof.Machine.execByteGap bytes s
  | .scanFrame address payload => Sys2Proof.Machine.execScanFrame address payload s
  | .silenceTimerExpiry board => Sys2Proof.Machine.execSilenceTimerExpiry board s
  | .pizzicatoExpiry => Sys2Proof.Machine.execPizzicatoExpiry s
  | .pulseEnd unit note => Sys2Proof.Machine.execPulseEnd unit note s
  | .restEnd unit note => Sys2Proof.Machine.execRestEnd unit note s
  | .reiteratorBeat unit => Sys2Proof.Machine.execReiteratorBeat unit s
  | .trapPulseEnd channel => Sys2Proof.Machine.execTrapPulseEnd channel s
  | .trapRestEnd channel => Sys2Proof.Machine.execTrapRestEnd channel s
  | .trapBeat channel => Sys2Proof.Machine.execTrapBeat channel s
  | .phaseEnd tremulant => Sys2Proof.Machine.execPhaseEnd tremulant s
  | .stepEnd channel => Sys2Proof.Machine.execStepEnd channel s
  | .tabDriveFrameComplete => Sys2Proof.Machine.execTabDriveFrameComplete s
  | .settleExpiry => Sys2Proof.Machine.execSettleExpiry s
  | .replyFrameComplete => Sys2Proof.Machine.execReplyFrameComplete s
  | .boardFrameComplete link => Sys2Proof.Machine.execBoardFrameComplete link s
  | .refreshSweep => Sys2Proof.Machine.execRefreshSweep s
  | .eraseEnd flaws => Sys2Proof.Machine.execEraseEnd flaws s
  | .programEnd flaws => Sys2Proof.Machine.execProgramEnd flaws s
  | .verifyEnd => Sys2Proof.Machine.execVerifyEnd s
  | .startAfresh => Sys2Proof.Machine.execStartAfresh s
  | .unknownCommand panel payload => Sys2Proof.Machine.execUnknownCommand panel payload s
  | .loadEntry panel ps => Sys2Proof.Machine.execLoadEntry panel ps s
  | .readEntry panel ps => Sys2Proof.Machine.execReadEntry panel ps s
  | .fillEntries panel ps => Sys2Proof.Machine.execFillEntries panel ps s
  | .searchReferences panel ps => Sys2Proof.Machine.execSearchReferences panel ps s
  | .commitTables panel ps => Sys2Proof.Machine.execCommitTables panel ps s
  | .copyLevel panel ps => Sys2Proof.Machine.execCopyLevel panel ps s
  | .capture panel ps => Sys2Proof.Machine.execCapture panel ps s
  | .recall panel ps => Sys2Proof.Machine.execRecall panel ps s
  | .cancel panel ps => Sys2Proof.Machine.execCancel panel ps s
  | .pop panel ps => Sys2Proof.Machine.execPop panel ps s
  | .setStops panel ps => Sys2Proof.Machine.execSetStops panel ps s
  | .selectLevel panel ps => Sys2Proof.Machine.execSelectLevel panel ps s
  | .lockLevel panel ps => Sys2Proof.Machine.execLockLevel panel ps s
  | .unlockLevel panel ps => Sys2Proof.Machine.execUnlockLevel panel ps s
  | .clearTabFault panel ps => Sys2Proof.Machine.execClearTabFault panel ps s
  | .cueTrigger panel ps => Sys2Proof.Machine.execCueTrigger panel ps s
  | .cueHoldOn panel ps => Sys2Proof.Machine.execCueHoldOn panel ps s
  | .cueHoldOff panel ps => Sys2Proof.Machine.execCueHoldOff panel ps s
  | .setReiteration panel ps => Sys2Proof.Machine.execSetReiteration panel ps s
  | .setReiterationTrap panel ps => Sys2Proof.Machine.execSetReiterationTrap panel ps s
  | .setTremulant panel ps => Sys2Proof.Machine.execSetTremulant panel ps s
  | .assignShoe panel ps => Sys2Proof.Machine.execAssignShoe panel ps s
  | .soundPipe panel ps => Sys2Proof.Machine.execSoundPipe panel ps s
  | .silencePipe panel ps => Sys2Proof.Machine.execSilencePipe panel ps s
  | .silenceDirect panel ps => Sys2Proof.Machine.execSilenceDirect panel ps s
  | .mute panel ps => Sys2Proof.Machine.execMute panel ps s
  | .unmute panel ps => Sys2Proof.Machine.execUnmute panel ps s
  | .releaseAll panel ps => Sys2Proof.Machine.execReleaseAll panel ps s
  | .readStatus panel ps => Sys2Proof.Machine.execReadStatus panel ps s
  | .acknowledge panel ps => Sys2Proof.Machine.execAcknowledge panel ps s
  | .forceCause panel ps => Sys2Proof.Machine.execForceCause panel ps s
  | .restart panel ps => Sys2Proof.Machine.execRestart panel ps s
  | .msStep => Sys2Proof.Machine.execMsStep s
  | .powerLoss => Sys2Proof.Machine.execPowerLoss s

end Sys2Proof.Machine
end

