-- ==== Sys2Proof/Machine/Step.lean ====
section
/-! DEFINITION. One step: the command at the front of the queue is taken and carried out; with none
waiting, the part takes what the inbound line brings and goes on with a fill. -/

namespace Sys2Proof.Machine

/-- The command at the front of the queue is carried out with the queue's rest. With nothing waiting the
part does what it does unasked, and carries out what a frame that ends there makes (assumptions 10, 16,
19). -/
def step (s : State) : Host.Outcome State Fault Refusal :=
  match s.pending with
  | [] =>
    match s.unasked with
    | (t, none) => .next t
    | (t, some c) => exec c t
  | c :: rest => exec c { s with pending := rest }

/-- The state with the command that a word spells at the front of its queue; unchanged where the word
spells none, as every word does, since no row of the opcode table gives bits. -/
def State.withFetchWord (s : State) (nbits w : Nat) : State :=
  match decodeTableWord nbits w with
  | none => s
  | some c => { s with pending := c :: s.pending }

end Sys2Proof.Machine
end

