-- ==== Sys2Proof/WellFormed.lean ====
section
/-! DEFINITION. Which terms of `Instr` are commands that can reach the part: numbers inside the
ranges of section 5 of the scope file, frames no longer than the envelope carries, and frames that
are the row they stand under. -/

namespace Sys2Proof

open Machine

/-- A command frame with this payload can be sent and is the row `i`. -/
def commandWellFormed (i : Instr) : Bool :=
  match payloadOf i with
  | some (panel, payload) => payload.length ≤ 64 && decide (commandOf panel payload = i)
  | none => false

/-- The flaws of an erase or a program name bytes of one block (R140). -/
def flawsWellFormed (flaws : List (Nat × Byte)) : Bool := flaws.all (fun f => f.1 < 64)

/-- The terms that stand for a command or an event of the part. -/
def Instr.wellFormed (i : Instr) : Bool :=
  match i with
  | .start => true
  | .startDone => true
  | .badFrame bytes => receive bytes == .bad
  | .byteGap bytes => receive bytes == .unfinished
  | .scanFrame _ payload => payload.length ≤ 64
  | .silenceTimerExpiry board => board < 32
  | .pizzicatoExpiry => true
  | .pulseEnd unit note => unit < 8 && note < 49
  | .restEnd unit note => unit < 8 && note < 49
  | .reiteratorBeat unit => unit < 8
  | .trapPulseEnd channel => channel < 32
  | .trapRestEnd channel => channel < 32
  | .trapBeat channel => channel < 32
  | .phaseEnd tremulant => tremulant < 12
  | .stepEnd channel => channel < 2
  | .tabDriveFrameComplete => true
  | .settleExpiry => true
  | .replyFrameComplete => true
  | .boardFrameComplete _ => true
  | .refreshSweep => true
  | .eraseEnd flaws => flawsWellFormed flaws
  | .programEnd flaws => flawsWellFormed flaws
  | .verifyEnd => true
  | .startAfresh => true
  | .msStep => true
  | .powerLoss => true
  | .unknownCommand p ps => commandWellFormed (.unknownCommand p ps)
  | .loadEntry p ps => commandWellFormed (.loadEntry p ps)
  | .readEntry p ps => commandWellFormed (.readEntry p ps)
  | .fillEntries p ps => commandWellFormed (.fillEntries p ps)
  | .searchReferences p ps => commandWellFormed (.searchReferences p ps)
  | .commitTables p ps => commandWellFormed (.commitTables p ps)
  | .copyLevel p ps => commandWellFormed (.copyLevel p ps)
  | .capture p ps => commandWellFormed (.capture p ps)
  | .recall p ps => commandWellFormed (.recall p ps)
  | .cancel p ps => commandWellFormed (.cancel p ps)
  | .pop p ps => commandWellFormed (.pop p ps)
  | .setStops p ps => commandWellFormed (.setStops p ps)
  | .selectLevel p ps => commandWellFormed (.selectLevel p ps)
  | .lockLevel p ps => commandWellFormed (.lockLevel p ps)
  | .unlockLevel p ps => commandWellFormed (.unlockLevel p ps)
  | .clearTabFault p ps => commandWellFormed (.clearTabFault p ps)
  | .cueTrigger p ps => commandWellFormed (.cueTrigger p ps)
  | .cueHoldOn p ps => commandWellFormed (.cueHoldOn p ps)
  | .cueHoldOff p ps => commandWellFormed (.cueHoldOff p ps)
  | .setReiteration p ps => commandWellFormed (.setReiteration p ps)
  | .setReiterationTrap p ps => commandWellFormed (.setReiterationTrap p ps)
  | .setTremulant p ps => commandWellFormed (.setTremulant p ps)
  | .assignShoe p ps => commandWellFormed (.assignShoe p ps)
  | .soundPipe p ps => commandWellFormed (.soundPipe p ps)
  | .silencePipe p ps => commandWellFormed (.silencePipe p ps)
  | .silenceDirect p ps => commandWellFormed (.silenceDirect p ps)
  | .mute p ps => commandWellFormed (.mute p ps)
  | .unmute p ps => commandWellFormed (.unmute p ps)
  | .releaseAll p ps => commandWellFormed (.releaseAll p ps)
  | .readStatus p ps => commandWellFormed (.readStatus p ps)
  | .acknowledge p ps => commandWellFormed (.acknowledge p ps)
  | .forceCause p ps => commandWellFormed (.forceCause p ps)
  | .restart p ps => commandWellFormed (.restart p ps)

end Sys2Proof
end

