-- ==== Sys2Proof/Safety.lean ====
section
/-! DEFINITION. The words the statements use: when the part is ready for a command, which parts of the
state a step leaves alone, and the laws that hold between steps (the invariants of the spec's prose). -/

namespace Sys2Proof

open Machine

/-- A command frame's panel address, its identifier, whether its reply is ordered, and whether its
parameter bytes have the length its identifier requires (the command tables of R169 and R179); none for
a row that is no command frame, and for UNKNOWN_COMMAND, whose identifier names no command. -/
def Instr.commandForm : Instr → Option (Byte × Byte × Bool × Bool)
  | .loadEntry p ps => some (p, 0x01, false, entryLengthOk 3 ps)
  | .readEntry p ps => some (p, 0x02, false, ps.length == 3)
  | .fillEntries p ps => some (p, 0x03, false, entryLengthOk 5 ps)
  | .searchReferences p ps => some (p, 0x04, false, ps.length == 3)
  | .commitTables p ps => some (p, 0x05, false, ps.length == 0)
  | .copyLevel p ps => some (p, 0x06, true, ps.length == 2)
  | .capture p ps => some (p, 0x10, true, ps.length == 1)
  | .recall p ps => some (p, 0x11, true, ps.length == 1)
  | .cancel p ps => some (p, 0x12, true, ps.length == 1)
  | .pop p ps => some (p, 0x13, true, ps.length == 0)
  | .setStops p ps => some (p, 0x14, true, ps.length == 52)
  | .selectLevel p ps => some (p, 0x15, false, ps.length == 1)
  | .lockLevel p ps => some (p, 0x16, false, ps.length == 1)
  | .unlockLevel p ps => some (p, 0x17, false, ps.length == 1)
  | .clearTabFault p ps => some (p, 0x18, false, ps.length == 1)
  | .cueTrigger p ps => some (p, 0x20, false, ps.length == 5)
  | .cueHoldOn p ps => some (p, 0x20, false, ps.length == 5)
  | .cueHoldOff p ps => some (p, 0x20, false, ps.length == 5)
  | .setReiteration p ps => some (p, 0x21, false, ps.length == 3)
  | .setReiterationTrap p ps => some (p, 0x21, false, ps.length == 3)
  | .setTremulant p ps => some (p, 0x22, false, ps.length == 3)
  | .assignShoe p ps => some (p, 0x23, false, ps.length == 2)
  | .soundPipe p ps => some (p, 0x30, false, ps.length == 2)
  | .silencePipe p ps => some (p, 0x31, false, ps.length == 2)
  | .silenceDirect p ps => some (p, 0x32, false, ps.length == 0)
  | .mute p ps => some (p, 0x33, false, ps.length == 1)
  | .unmute p ps => some (p, 0x34, false, ps.length == 1)
  | .releaseAll p ps => some (p, 0x35, false, ps.length == 0)
  | .readStatus p ps => some (p, 0x40, false, ps.length == 0)
  | .acknowledge p ps => some (p, 0x41, false, ps.length == 1)
  | .forceCause p ps => some (p, 0x42, false, ps.length == 1)
  | .restart p ps => some (p, 0x43, false, ps.length == 0)
  | .unknownCommand _ _ => none
  | .start | .startDone | .badFrame _ | .byteGap _ | .scanFrame _ _
  | .silenceTimerExpiry _
  | .pizzicatoExpiry | .pulseEnd _ _ | .restEnd _ _ | .reiteratorBeat _ | .trapPulseEnd _
  | .trapRestEnd _ | .trapBeat _ | .phaseEnd _ | .stepEnd _ | .tabDriveFrameComplete
  | .settleExpiry | .replyFrameComplete | .boardFrameComplete _ | .refreshSweep | .eraseEnd _
  | .programEnd _ | .verifyEnd | .startAfresh | .msStep | .powerLoss => none

end Sys2Proof

namespace Sys2Proof.Machine

/-! ## Readiness and frames -/

/-- Power is on and RESET is high: events are taken (R153). -/
abbrev State.running (s : State) : Prop := s.stopped = false

/-- A command frame that arrives now is taken at once and passes steps 2 and 3 of R169 but for its length:
the Reply Queue has room, START DONE has been raised, no RESTART is pending and no fill is in progress. (A
frame that meets a fill in progress is handed on at its end: FillTakesItsLoads.) -/
abbrev State.ready (s : State) : Prop :=
  s.stopped = false ∧ s.fiu.replies.length < replyCapacity ∧ s.cmu.started = true ∧
    s.cmu.restartPending = false ∧ s.cmu.fill = none

/-- The parts of the state that a frame names. -/
inductive Part where
  | tick | settings | isu | une | ptu | efu | rgu | msu | omu | fiu | cmu | stopped | free | pending
  | inbound
deriving DecidableEq, Repr

/-- Two states agree on a part. -/
def Part.same (s t : State) : Part → Prop
  | .tick => t.tick = s.tick
  | .settings => t.settings = s.settings
  | .isu => t.isu = s.isu
  | .une => t.une = s.une
  | .ptu => t.ptu = s.ptu
  | .efu => t.efu = s.efu
  | .rgu => t.rgu = s.rgu
  | .msu => t.msu = s.msu
  | .omu => t.omu = s.omu
  | .fiu => t.fiu = s.fiu
  | .cmu => t.cmu = s.cmu
  | .stopped => t.stopped = s.stopped
  | .free => t.free = s.free
  | .pending => t.pending = s.pending
  | .inbound => t.inbound = s.inbound

/-- Two states agree on every part that is not listed. -/
def unchangedBut (changed : List Part) (s t : State) : Prop := ∀ p, p ∉ changed → p.same s t

/-- The state after a step whose work leads to `s`, when the step answers a command: the reply joins the
Reply Queue (R167) and the arbiter chooses (R168). -/
def State.replied (panel id : Byte) (ordered : Bool) (result : Result) (data : List Byte)
    (s : State) : State :=
  (s.placeReply panel id ordered result data).arbitrate

/-! ## Contributions: what a begin and an end do (R46) -/

/-- R30, R37: what the pair of stop entry `e` and key `k` plays; none where the pitch arithmetic gives
nothing, the key lies outside a TRAP stop's span, or the target's entry is invalid. A TREMULANT stop has no
keys (R45). -/
def State.plays (s : State) (e : StopEntry) (k : Nat) : Option Target :=
  match e.kind with
  | .rank => (s.une.rank e.target).entry?.bind fun r =>
      (pitchIndex e r.lowest r.count k).map (Target.pipe e.target)
  | .percussion => (s.ptu.unit e.target).entry.entry?.bind fun q =>
      (pitchIndex e q.lowest q.count k).map fun i => Target.note e.target i e.mode
  | .trap => (s.ptu.trap e.target).entry.entry?.bind fun _ =>
      if e.lowKey ≤ k ∧ k ≤ e.highKey then some (.trap e.target) else none
  | .tremulant => none

/-- The part once a contribution to a target, if there is one, has begun: R46 passes the begin on to the
target's unit. What that does is State.beginTaken. -/
def State.begun (tg : Option Target) (s : State) : State := s.uneDo fun _ _ => Une.passOn true tg

/-- The part once a contribution to a target, if there is one, has ended; State.endTaken says what that
does. -/
def State.ended (tg : Option Target) (s : State) : State := s.uneDo fun _ _ => Une.passOn false tg

/-- The request of a source whose level goes from `v` to `v'`, if it changes (R156). -/
def changedRequest (v v' : Bool) (output : Nat) : List Req :=
  if v = v' then [] else if v' then [.on output] else [.off output]

/-- R67, R68: a strike request for note `i` makes `y` of the unit `x`. -/
def PercUnit.struck (muted : Bool) (e : PercEntry) (i : Nat) (x y : PercUnit) : Prop :=
  let n := x.note i
  (muted = true ∨ n.state = .queued ∨ n.state = .striking → y = x) ∧
    (muted = false → n.state = .idle → x.striking < e.budget →
      y = { x.withNote i { n with state := .striking, timer := 4 * e.pulse } with
        striking := x.striking + 1 }) ∧
    (muted = false → n.state = .idle → e.budget ≤ x.striking →
      y = { x.withNote i { n with state := .queued } with queue := x.queue ++ [i] }) ∧
    (muted = false → n.state = .resting → y = x.withNote i { n with pending := true })

/-- R72, R75, R78: after a begin on note `i` of a valid unit the damper demand is one more, with the damper
up before the rest; a SINGLE begin is a strike request; a REITERATE one adds to the note's reiteration
demand and, where no note had any, starts the reiterator with a beat at once, which strikes the note. -/
def State.noteBegun (s t : State) (u i : Nat) (mode : StopMode) : Prop :=
  ∀ e ∈ (s.ptu.unit u).entry.entry?, i < e.count → e.count ≤ 49 →
    let x := s.ptu.unit u
    let y := t.ptu.unit u
    let muted := s.ptu.muted e.chamber
    let lifted : PercUnit := { x with
      damperDemand := x.damperDemand + 1
      damperOn := if e.damper = none then x.damperOn else e.damperMode != .none }
    let called := lifted.withNote i
      { x.note i with reiteration := (x.note i).reiteration + 1 }
    t = { s with
      ptu := { s.ptu with units := put s.ptu.units u y }
      omu := s.omu.takeAll (e.damper.toList.flatMap (changedRequest x.damperOn y.damperOn) ++
        if y.striking = x.striking then [] else [.on (e.firstOut + i)]) } ∧
    (mode ≠ .reiterate → lifted.struck muted e i y) ∧
    (mode = .reiterate → (∀ j < 49, (x.note j).reiteration = 0) →
      { called with reiterator := ⟨true, 0, false⟩ }.struck muted e i y) ∧
    (mode = .reiterate → (∃ j < 49, (x.note j).reiteration ≠ 0) → y = called)

/-- R72, R75, R78: after an end on a note of a valid unit the damper demand is one fewer, and for REITERATE
the note's reiteration demand, the reiterator stopping when no note has any left; strokes go on. -/
def State.noteEnded (s t : State) (u i : Nat) (mode : StopMode) : Prop :=
  ∀ e ∈ (s.ptu.unit u).entry.entry?,
    let x := s.ptu.unit u
    let y := t.ptu.unit u
    let dropped : PercUnit := { x with
      damperDemand := x.damperDemand - 1
      damperOn := if e.damper = none then x.damperOn
        else e.damperMode == .always || e.damperMode == .key &&
          (decide (1 < x.damperDemand) || decide (x.queue ≠ []) || decide (0 < x.striking)) }
    let left := dropped.withNote i
      { x.note i with reiteration := (x.note i).reiteration - 1 }
    t = { s with
      ptu := { s.ptu with units := put s.ptu.units u y }
      omu := s.omu.takeAll (e.damper.toList.flatMap (changedRequest x.damperOn y.damperOn)) } ∧
    (mode ≠ .reiterate → y = dropped) ∧
    (mode = .reiterate → (∀ j < 49, (left.note j).reiteration = 0) →
      y = { left with reiterator := ⟨false, x.reiterator.counter, false⟩ }) ∧
    (mode = .reiterate → (∃ j < 49, (left.note j).reiteration ≠ 0) → y = left)

/-- R89, R93: a strike request makes `y` of the channel `x`; a blow that starts takes one from the remaining
count of a COUNTED channel, and the counter stops at the last. -/
def TrapChan.struck (muted : Bool) (e : TrapEntry) (x y : TrapChan) : Prop :=
  (muted = true ∨ x.state = .striking ∨ x.state = .queued → y = x) ∧
    (muted = false → x.state = .idle → y = { x with
      state := .striking
      timer := 4 * e.pulse
      remaining := if e.mode = .counted then x.remaining - 1 else x.remaining
      beat := if e.mode = .counted ∧ x.remaining = 1 then ⟨false, x.beat.counter, false⟩
        else x.beat }) ∧
    (muted = false → x.state = .resting → y = { x with pending := true })

/-- R90 and R91: whether the output of a channel is on. -/
def TrapChan.sounds (muted : Bool) (e : TrapEntry) (x : TrapChan) : Bool :=
  x.state == .striking || e.mode == .held && decide (0 < x.demand) && !muted

/-- R86, R91, R92: the demand of the channel `x` goes to `d` with nothing triggered, which makes `y` of it: a
REITERATE channel without demand before starts to roll with a beat at once, which strikes it, and stops its
counter with the last demand; the output follows, a HELD one on while there is demand and off with the last.
An invalid channel's engine stands. -/
def TrapChan.demandTaken (muted : Chamber → Bool) (d : Nat) (x y : TrapChan) : Prop :=
  (x.entry.entry? = none → y = { x with demand := d }) ∧
    ∀ e ∈ x.entry.entry?,
      let moved : TrapChan := { x with demand := d, out := y.sounds (muted e.chamber) e }
      (e.mode = .reiterate → x.demand = 0 → 0 < d →
        { moved with beat := ⟨true, 0, false⟩ }.struck (muted e.chamber) e y) ∧
      (e.mode = .reiterate → 0 < x.demand → d = 0 →
        y = { moved with beat := ⟨false, x.beat.counter, false⟩ }) ∧
      (e.mode ≠ .reiterate ∨ (x.demand = 0 ↔ d = 0) → y = moved)

/-- R86 to R88, R91 to R93: after a trap begin the demand is one more and one trigger has been made. A PULSE
channel is struck; a HELD one has its output on; a REITERATE one without demand before starts to roll with a
beat at once; a COUNTED one starts or reloads its run of N + 1 blows. A muted or invalid channel is not
triggered, and its demand still rises. -/
def State.trapBegun (s t : State) (c : Nat) : Prop :=
  let x := s.ptu.trap c
  let y := t.ptu.trap c
  ((x.entry.entry? = none → t = { s with ptu := { s.ptu with
      traps := put s.ptu.traps c { x with demand := x.demand + 1 } } }) ∧
    ∀ e ∈ x.entry.entry?,
      let muted := s.ptu.muted e.chamber
      let called : TrapChan := { x with demand := x.demand + 1, out := y.sounds muted e }
      let started : TrapChan := { called with beat := ⟨true, 0, false⟩ }
      t = { s with ptu := { s.ptu with traps := put s.ptu.traps c y }, omu := t.omu } ∧
      (x.out = x.sounds muted e → t.omu = s.omu.takeAll (changedRequest x.out y.out e.output)) ∧
      (e.mode = .pulse → called.struck muted e y) ∧
      (e.mode = .held → y = called) ∧
      (e.mode = .reiterate → x.demand = 0 → started.struck muted e y) ∧
      (e.mode = .reiterate → x.demand ≠ 0 → y = called) ∧
      (e.mode = .counted → muted = true → y = called) ∧
      (e.mode = .counted → muted = false →
        { started with remaining := e.repeats + 1 }.struck muted e y))

/-- R86, R88, R91, R92: after a trap end the demand is one fewer and nothing has been triggered: a HELD output
goes off with the last demand, but for a blow in progress, and a REITERATE counter stops. -/
def State.trapEnded (s t : State) (c : Nat) : Prop :=
  let x := s.ptu.trap c
  (x.entry.entry? = none → t = { s with ptu := { s.ptu with
      traps := put s.ptu.traps c { x with demand := x.demand - 1 } } }) ∧
    ∀ e ∈ x.entry.entry?,
      let left : TrapChan := { x with
        demand := x.demand - 1
        beat := if e.mode = .reiterate ∧ x.demand = 1 then ⟨false, x.beat.counter, false⟩ else x.beat }
      let y : TrapChan := { left with out := left.sounds (s.ptu.muted e.chamber) e }
      t = { s with
        ptu := { s.ptu with traps := put s.ptu.traps c y }
        omu := s.omu.takeAll (changedRequest x.out y.out e.output) }

/-- R46: what the begin of a contribution does to the part, by its target: a pipe's demand count is one more,
with a request-on at 0→1 in an unmuted chamber (R48, R49); a note and a channel are called and struck as
above; a tremulant's demand is one more, and its gating takes the first (R107, R108). Nothing else changes. -/
def State.beginTaken (s t : State) : Option Target → Prop
  | none => t = s
  | some (.pipe r i) => t = { s with
      une := s.une.withCount r i (s.une.count r i + 1)
      omu := s.omu.takeAll (match s.une.rank r with
        | .invalid _ => []
        | .valid e => if s.une.count r i = 0 ∧ s.une.muted e.chamber = false
            then [.on (e.firstOut + i)] else []) }
  | some (.note u i mode) => s.noteBegun t u i mode
  | some (.trap c) => s.trapBegun t c
  | some (.trem n) =>
    let x := s.efu.trem n
    ∀ _e ∈ x.entry.entry?, t = { s with efu := { s.efu with trems := put s.efu.trems n { x with
      demand := x.demand + 1
      gating := if x.demand = 0 ∧ x.gating = .idle then .waiting
        else if x.demand = 0 ∧ x.gating = .ending then .pulsing else x.gating } } }

/-- R46: what the end of a contribution does to the part, by its target. -/
def State.endTaken (s t : State) : Option Target → Prop
  | none => t = s
  | some (.pipe r i) => t = { s with
      une := s.une.withCount r i (s.une.count r i - 1)
      omu := s.omu.takeAll (match s.une.rank r with
        | .invalid _ => []
        | .valid e => if s.une.count r i = 1 ∧ s.une.muted e.chamber = false
            then [.off (e.firstOut + i)] else []) }
  | some (.note u i mode) => s.noteEnded t u i mode
  | some (.trap c) => s.trapEnded t c
  | some (.trem n) =>
    let x := s.efu.trem n
    ∀ _e ∈ x.entry.entry?, t = { s with efu := { s.efu with trems := put s.efu.trems n { x with
      demand := x.demand - 1
      gating := if x.demand = 1 ∧ x.gating = .waiting then .idle
        else if x.demand = 1 ∧ x.gating = .pulsing then (if x.phaseOn then .ending else .idle)
        else x.gating } } }

/-! ## Key, stud and stop events -/

/-- R51: the window of a pair leaves the Pizzicato List and its contribution ends. -/
def State.windowEnded (st k : Nat) (s : State) : State :=
  State.ended ((s.une.stop st).entry?.bind fun e => s.plays e k)
    { s with une := { s.une with
      pizz := s.une.pizz.filter fun z => !(z.stop == st && z.key == k) } }

/-- R50, R52: a window that ends four ticks for each millisecond of the pizzicato time from now joins the
tail, and its contribution begins; with 64 entries standing the oldest one ends first. -/
def State.windowAdded (st k : Nat) (tg : Target) (s : State) : State :=
  let roomy := match s.une.pizz with
    | [] => s
    | z :: _ => if 64 ≤ s.une.pizz.length then s.windowEnded z.stop z.key else s
  State.begun (some tg) { roomy with une := { roomy.une with
    pizz := roomy.une.pizz ++ [⟨st, k, s.tick + BitVec.ofNat 32 (4 * s.settings.pizzicato), false⟩] } }

/-- R43: what stop `st` does when key `k` of division `d` goes from one touch state to another. A key that
arrives at touch of a stop that is ON begins the pair's contribution, by a window for a PIZZICATO stop; one
that leaves it ends the contribution. -/
def State.keyAtStop (d k : Nat) (old new : Touch) (s : State) (st : Nat) : State :=
  match s.une.stop st with
  | .invalid _ => s
  | .valid e =>
    let below : Touch := if e.touch = .first then .up else .first
    let at_ : Touch := if e.touch = .first then .first else .second
    let pizzicato : Bool := e.kind = .rank ∧ e.mode = .pizzicato
    if e.division ≠ d ∨ e.kind = .tremulant ∨ s.une.isOn st = false then s
    else if old = below ∧ new = at_ then
      match pizzicato, s.plays e k with
      | true, some tg => s.windowAdded st k tg
      | true, none => s
      | false, tg => s.begun tg
    else if old = at_ ∧ new = below then
      if pizzicato then
        if s.une.pizz.any fun z => z.stop == st && z.key == k then s.windowEnded st k else s
      else s.ended (s.plays e k)
    else s

/-- R42, R43: the part once a key-touch event has been taken: the held-key image, then every stop in ascending
order. -/
def State.keyTaken (d k : Nat) (old new : Touch) (s : State) : State :=
  (List.range 256).foldl (State.keyAtStop d k old new) { s with une := s.une.withHeld d k new }

/-- R87: the part once a stud event has been taken: the held-stud image, and for a stud that names a channel a
trap begin or a trap end on it. -/
def State.studTaken (st : Nat) (down : Bool) (s : State) : State :=
  let t := { s with ptu := { s.ptu with heldStuds := put s.ptu.heldStuds st down } }
  let channel := (nth s.ptu.studs st none).map Target.trap
  if down then t.begun channel else t.ended channel

/-- R44, R45: the part once a stop event has been taken: the stop-on image, and then, for a stop turned ON, the
begin of its contribution with each key at touch in ascending order, but for a PIZZICATO stop, which begins
nothing; for one turned OFF, the end of each contribution that was live, with the windows of a PIZZICATO stop in
list order (assumption 7). A TREMULANT stop begins or ends its
own. An event that names the state the image holds changes nothing (R42). -/
def State.stopTaken (st : Nat) (on : Bool) (s : State) : State :=
  if s.une.isOn st = on then s
  else
    let t := { s with une := { s.une with stopOn := put s.une.stopOn st on } }
    match s.une.stop st with
    | .invalid _ => t
    | .valid e =>
      let own := (s.efu.trem e.target).entry.entry?.map fun _ => Target.trem e.target
      let held := (List.range (if e.division = 0 then 32 else 61)).filter fun k =>
        match e.touch, s.une.heldKey e.division k with
        | _, .second => true
        | .first, .first => true
        | _, _ => false
      let pizzicato : Bool := e.kind = .rank ∧ e.mode = .pizzicato
      match e.kind, on with
      | .tremulant, true => t.begun own
      | .tremulant, false => t.ended own
      | _, true => if pizzicato then t else held.foldl (fun t k => t.begun (t.plays e k)) t
      | _, false =>
        if pizzicato then
          ((s.une.pizz.filter fun z => z.stop == st).map Pizz.key).foldl
            (fun t k => t.windowEnded st k) t
        else held.foldl (fun t k => t.ended (t.plays e k)) t

/-- R10, R12: the part once the events of a board's contacts have been taken, in ascending contact order: for
a KEYS board each one-step key-touch event of a key whose touch state has changed, for a STUDS board each
stud that has moved, and for a TABS board a stop event for each stop whose state has changed. The ISU, the RGU,
the replies and the causes stand as `s'` has them. -/
def State.contactsTaken (b : Nat) (e : BoardEntry) (s s' : State) : State :=
  (List.range e.count).foldl
    (fun t c =>
      let n := e.first + c
      let down := ((s'.isu.board b).contact c).accepted
      match e.kind with
      | .keys => (touchSteps (s.isu.touchOf e.division n) (s'.isu.touchOf e.division n)).foldl
          (fun t p => t.keyTaken e.division n p.1 p.2) t
      | .studs => if ((s.isu.board b).contact c).accepted = down then t else t.studTaken n down
      | .tabs => if s.rgu.isOn n = s'.rgu.isOn n then t else t.stopTaken n (s'.rgu.isOn n)
      | .pistons | .shoes => t)
    { s with isu := s'.isu, rgu := s'.rgu, fiu := s'.fiu, cmu := s'.cmu }

/-- R9: the keys of a KEYS board whose contacts have moved take the touch states of their two rows, and no other
key's touch state changes. -/
def State.keysFollow (s s' : State) (e : BoardEntry) (moved : Nat → Prop) : Prop :=
  (∀ c, moved c → s'.isu.touchOf e.division (e.first + c) =
    if s'.isu.rowDown e.division (e.first + c) .first = false then .up
    else if s'.isu.rowDown e.division (e.first + c) .second = false then .first
    else .second) ∧
  ∀ d k, (∀ c, moved c → d ≠ e.division ∨ k ≠ e.first + c) → s'.isu.touchOf d k = s.isu.touchOf d k

/-- R4, R14: the part once the accepted contacts of board `b`, with the valid entry `e`, have been forced up, in
ascending contact order. A KEYS board sends the key-touch events of its keys, a STUDS board a stud UP and a
PISTONS board a RELEASE for each contact that was down; a TABS or SHOES board sends none. The ISU, the replies
and the causes stand as `s'` has them, and the RGU of a TABS board. -/
def State.forcedUp (s s' : State) (b : Nat) (e : BoardEntry) : Prop :=
  let forced (c : Nat) : Prop := c < e.count ∧ ((s.isu.board b).contact c).accepted = true
  (e.kind ≠ .keys → s'.isu.touch = s.isu.touch) ∧
  match e.kind with
  | .keys => s'.rgu = s.rgu ∧ (e.division < 5 → e.first + e.count ≤ 61 →
      s' = s.contactsTaken b e s' ∧ s.keysFollow s' e forced)
  | .studs => s'.rgu = s.rgu ∧ (e.first + e.count ≤ 32 → s' = s.contactsTaken b e s')
  | .pistons =>
    s' = { s with isu := s'.isu, rgu := s'.rgu, fiu := s'.fiu, cmu := s'.cmu } ∧
      s'.rgu = { s.rgu with pressed := s'.rgu.pressed, setHeld := s'.rgu.setHeld } ∧
      (∀ p < 64, nth s'.rgu.pressed p false =
        if e.covers p ∧ ((s.isu.board b).contact (p - e.first)).accepted = true then false
        else nth s.rgu.pressed p false) ∧
      ((∃ c, forced c) → (s'.rgu.setHeld = true ↔ ∃ p < 64, nth s'.rgu.pressed p false = true ∧
        nth s.rgu.pistons p .none = .set)) ∧
      ((¬ ∃ c, forced c) → s'.rgu.setHeld = s.rgu.setHeld)
  | .tabs | .shoes => s' = { s with isu := s'.isu, rgu := s'.rgu, fiu := s'.fiu, cmu := s'.cmu }

/-- R133, R167: the replies once the boards whose entries stood in the Tab Drive Queue of `s` and stand no longer
in that of `s'` have been withdrawn: each is out of the wait sets, but for one whose frame is on the line. -/
def State.unwaited (s s' : State) : List Reply :=
  s.fiu.replies.map fun r => { r with waits := r.waits.filter fun w =>
    w.sent || !(s.rgu.tabQueue.any fun q => q.board == w.board) ||
      (s'.rgu.tabQueue.any fun q => q.board == w.board) }

/-! ## Effects that several commands share -/

/-- R75, R92: a beat counter's value one ms step on, for an interval. -/
def BeatCounter.stepsTo (interval : Nat) (b b' : BeatCounter) : Prop :=
  (b.running = false → b' = b) ∧
    (b.running = true → b.counter + 1 = interval → b' = ⟨true, 0, true⟩) ∧
    (b.running = true → b.counter + 1 ≠ interval → b.counter < 255 →
      b' = { b with counter := b.counter + 1 }) ∧
    (b.running = true → b.counter + 1 ≠ interval → 255 ≤ b.counter → b' = { b with counter := 0 })

/-- R133: the pending drives of a stop. -/
def Rgu.drivesOf (r : Rgu) (st : Nat) : List Drive :=
  r.tabQueue.flatMap fun e => e.drives.filter fun d => d.stop == st

/-- R121, R132, R133: the stops have been set as `order` says (none leaves a stop as it is). The stop event
of each stop that changed has been taken by the UNE, in ascending order (R44); each stop that changed and
whose tab can be driven has its drive pending, and the drives of the other stops stand. -/
def State.stopsSet (order : Nat → Option Bool) (s t : State) : Prop :=
  t = (List.range 256).foldl
      (fun x st => match order st with
        | none => x
        | some v => if s.rgu.isOn st = v then x else x.stopTaken st v)
      { s with rgu := t.rgu } ∧
  unchangedBut [.une, .ptu, .efu, .omu, .rgu] s t ∧
    (∀ st < 256, t.rgu.isOn st = (order st).getD (s.rgu.isOn st)) ∧
    (s.une.stopOn = s.rgu.stopState → t.une.stopOn = t.rgu.stopState) ∧
    t.une.stops = s.une.stops ∧ t.une.ranks = s.une.ranks ∧ t.une.heldKeys = s.une.heldKeys ∧
    t.une.direct = s.une.direct ∧
    t.rgu = { s.rgu with stopState := t.rgu.stopState, tabQueue := t.rgu.tabQueue } ∧
    (∀ st < 256, ∀ v b, order st = some v → s.rgu.isOn st ≠ v → s.isu.liveTabBoard st = some b →
      s.rgu.isFaulty st = false → ∃ e ∈ t.rgu.tabQueue, e.board = b ∧ ⟨st, v, 1⟩ ∈ e.drives) ∧
    ∀ e ∈ s.rgu.tabQueue, ∀ d ∈ e.drives, (order d.stop).getD (s.rgu.isOn d.stop) = s.rgu.isOn d.stop →
      ∃ e' ∈ t.rgu.tabQueue, e'.board = e.board ∧ d ∈ e'.drives

/-- The part as a start leaves it once the start-up load has been delivered (R151) and before START DONE:
every unit at its reset value but for the tables, what the tables alone set (Settings, board states, mute
flags, generators, stages, dampers and the outputs they request) and STORE FAULT; what the tables hold is
State.delivered. `array` is the nonvolatile array. -/
def State.freshlyStarted (array : List Host.Cell) (t : State) : Prop :=
  t.tick = 0 ∧ t.stopped = false ∧ t.cmu.started = false ∧ t.cmu.restartPending = false ∧
    t.cmu.enable = 0 ∧ t.cmu.fill = none ∧ t.cmu.causes &&& ~~~0x20#8 = 0 ∧ t.cmu.lastLost = none ∧
    t.cmu.lastBack = none ∧ t.cmu.lastTabFault = none ∧ t.cmu.lastRefusal = none ∧
    t.fiu.rx = .hunting ∧ t.fiu.replies = [] ∧ t.msu = Msu.reset array ∧
    (∃ pistons, t.rgu = { Rgu.reset with pistons := pistons }) ∧
    (∃ stops ranks, t.une = { Une.reset with
      stops := stops, ranks := ranks, muteMain := !t.settings.startUnmuted,
      muteSolo := !t.settings.startUnmuted }) ∧
    t.ptu.muteMain = t.une.muteMain ∧ t.ptu.muteSolo = t.une.muteSolo ∧
    t.ptu.heldStuds = Ptu.reset.heldStuds ∧
    (∀ u < 8, ∃ e on, t.ptu.unit u = { PercUnit.reset with entry := e, damperOn := on }) ∧
    (∀ c < 32, ∃ e, t.ptu.trap c = { TrapChan.reset with entry := e }) ∧
    (∀ b < 32, ∃ e, t.isu.board b =
      { Board.reset with entry := e, state := if e.entry?.isSome then .awaited else .unused }) ∧
    t.isu.touch = Isu.reset.touch ∧ t.isu.shoes = Isu.reset.shoes ∧ t.efu.shoes = Efu.reset.shoes ∧
    (∀ x < 12, (t.efu.trem x).gating = .idle ∧ (t.efu.trem x).demand = 0 ∧
      (t.efu.trem x).out = false ∧ (t.efu.trem x).phaseOn = false ∧ (t.efu.trem x).counter = 0) ∧
    (∀ x < 2, ∃ e, t.efu.expr x = ⟨e, 0, 0, 0, 0, none⟩) ∧
    t.omu.main.held = true ∧ t.omu.solo.held = true ∧ t.omu.refresh = none

/-! ## Table entries as they read -/

/-- What an entry loaded as `bs` reads as (R170, chapter 11): its fields, with what no field holds at 0;
none where its owner's check refuses it with RANGE. -/
def TableId.stored (t : TableId) (bs : List Byte) : Option (List Byte) :=
  match t with
  | .board => (parseSlot boardMask parseBoard bs).map (Slot.encode BoardEntry.encode)
  | .stop => (parseSlot stopMask parseStop bs).map (Slot.encode StopEntry.encode)
  | .rank => (parseSlot rankMask parseRank bs).map (Slot.encode RankEntry.encode)
  | .perc => (parseSlot percMask parsePerc bs).map (Slot.encode PercEntry.encode)
  | .trap => (parseSlot trapMask parseTrap bs).map (Slot.encode TrapEntry.encode)
  | .stud => (parseStud bs).map encodeStud
  | .trem => (parseSlot tremMask parseTrem bs).map (Slot.encode TremEntry.encode)
  | .expr => (parseSlot exprMask parseExpr bs).map (Slot.encode ExprEntry.encode)
  | .piston => (parsePiston bs).map PistonFn.encode
  | .settings => (parseSettings bs).map Settings.encode
  | .output => (parseSlot mapMask parseMap bs).map (Slot.encode MapEntry.encode)

/-- A load of an entry that passes its RANGE checks is refused with CONFLICT: two boards cover one thing
(R3), a slave breaks the cascade rules (R103), a point is named twice (R158). -/
def State.loadConflict (s : State) (t : TableId) (i : Nat) (bs : List Byte) : Bool :=
  bitAt bs 0 && match t with
    | .board => (parseBoard bs).any (fun e => s.isu.coverageConflict i e)
    | .trem => (parseTrem bs).any (fun e => s.efu.slaveConflict i e)
    | .output => (parseMap bs).any (fun e => s.omu.pointTaken i e)
    | .stop | .rank | .perc | .trap | .stud | .expr | .piston | .settings => false

/-- R170, R181: every entry of every table reads as a whole entry of its table's size. -/
abbrev State.entryLaw (s : State) : Prop :=
  ∀ (t : TableId) (i : Nat), i < t.size → (s.entryBytes t i).length = t.entrySize

/-! ## Laws of the store -/

/-- The nonvolatile array is in its canonical form. -/
abbrev State.memoryLaw (s : State) : Prop := Memory.wf s.msu.array = true

/-- R140, R141: what is to be written goes to a block of the array, since the numbers that make up a
block's number lie in their ranges. -/
abbrev State.blockLaw (s : State) : Prop :=
  (∀ w ∈ s.msu.queue, w.block < arrayBlocks) ∧ s.rgu.level ≤ 31 ∧ s.msu.job.dest ≤ 31 ∧
    ∀ p ∈ List.range 64, match nth s.rgu.pistons p .none with
      | .divisional d m => d ≤ 4 ∧ m ≤ 9
      | .general m => m ≤ 19
      | _ => True

/-- R143, R148: the Write Queue keeps to its capacity, BULK entries keep to their share, and at most one
entry waits for a block. -/
abbrev State.writeQueueLaw (s : State) : Prop :=
  s.msu.queue.length ≤ queueCapacity ∧ s.msu.bulkCount ≤ bulkShare ∧
    (s.msu.waiting.map Write.block).Nodup

/-! ## Laws of the lists -/

/-- R52, R131, R167: the Pizzicato List, the Registration Stack and the Reply Queue keep to their
capacities. -/
abbrev State.capacityLaw (s : State) : Prop :=
  s.une.pizz.length ≤ pizzCapacity ∧ s.rgu.stack.length ≤ stackCapacity ∧
    s.fiu.replies.length ≤ replyCapacity

/-- R133, R135: one Tab Drive Queue entry for a board, each with its drives in ascending stop order and
at most one for a stop; one Settle List entry for a stop. -/
abbrev State.tabLaw (s : State) : Prop :=
  (s.rgu.tabQueue.map DriveEntry.board).Nodup ∧
    (∀ e ∈ s.rgu.tabQueue, e.drives ≠ [] ∧ (e.drives.map Drive.stop).Pairwise (· < ·)) ∧
    (s.rgu.settle.map Settle.stop).Nodup

/-- R161: a board stands in a link's queue at most once. -/
abbrev State.linkQueueLaw (s : State) : Prop := s.omu.main.queue.Nodup ∧ s.omu.solo.queue.Nodup

/-- R166: what has been received of a frame is an unfinished frame, and its gap counts to 4 ticks. -/
abbrev State.intakeLaw (s : State) : Prop :=
  match s.fiu.rx with
  | .hunting => True
  | .partway bytes quiet => receive bytes = .unfinished ∧ quiet ≤ 4

/-- R167, R169, R171: a fill in progress has its entry whole and its loads inside its table, there is a
place for its reply, and nothing that would have refused it has come between. -/
abbrev State.fillLaw (s : State) : Prop :=
  ∀ f ∈ s.cmu.fill, f.entry.length = f.table.entrySize ∧ f.next + f.more < f.table.size ∧
    s.fiu.replies.length < replyCapacity ∧ s.stopped = false ∧ s.cmu.started = true ∧
    s.cmu.restartPending = false ∧ ¬ (s.msu.job.kind = .commit ∧ s.msu.job.outcome = .running)

/-! ## Laws of the scan boards -/

/-- R3: no two valid Board Map entries cover one (division, key, row), stop tab, piston input, stud or
shoe. -/
abbrev State.coverageLaw (s : State) : Prop :=
  ∀ b ∈ List.range 32, ∀ b' ∈ List.range 32, b ≠ b' →
    ∀ e ∈ (s.isu.board b).entry.entry?, ∀ e' ∈ (s.isu.board b').entry.entry?,
      e.kind = e'.kind → (e.kind = .keys → e.division = e'.division ∧ e.row = e'.row) →
      ∀ n ∈ List.range 256, ¬ (e.covers n = true ∧ e'.covers n = true)

/-- R4, R14, R15, R19: a covered contact of a KEYS, STUDS or PISTONS board is accepted down only while
its board is LIVE, and a suppressed key contact is up. -/
abbrev State.contactLaw (s : State) : Prop :=
  ∀ b ∈ List.range 32, ∀ e ∈ (s.isu.board b).entry.entry?, ∀ c ∈ List.range 64,
    (e.kind.forced = true → (s.isu.board b).state ≠ .live → c < e.count →
      ((s.isu.board b).contact c).accepted = false) ∧
    (e.kind = .keys → ((s.isu.board b).contact c).suppressed = true →
      ((s.isu.board b).contact c).accepted = false)

/-- R9: each key's touch state is the one that the accepted states of its two rows give. -/
abbrev State.touchLaw (s : State) : Prop :=
  ∀ d ∈ List.range 5, ∀ k ∈ List.range 61,
    s.isu.touchOf d k = touchFrom (s.isu.rowDown d k .first) (s.isu.rowDown d k .second)

/-- R87: a stud is down in the held-stud image while an accepted contact of a STUDS board that covers it
is down. -/
def State.studDown (s : State) (stud : Nat) : Bool :=
  (List.range 32).any fun b =>
    match (s.isu.board b).entry with
    | .invalid _ => false
    | .valid e =>
      e.kind = .studs && e.covers stud && ((s.isu.board b).contact (stud - e.first)).accepted

/-- R12, R87: the held-stud image agrees with the contacts. -/
abbrev State.studLaw (s : State) : Prop :=
  (∀ b ∈ List.range 32, ∀ e ∈ (s.isu.board b).entry.entry?, e.kind = .studs → e.count ≤ 64) ∧
    ∀ st ∈ List.range 32, nth s.ptu.heldStuds st false = s.studDown st

/-! ## Laws of the units -/

/-- R42, R80 and chapter 6: the copies that units keep of one another's state agree. -/
abbrev State.imageLaw (s : State) : Prop :=
  s.une.heldKeys = s.isu.touch ∧ s.une.stopOn = s.rgu.stopState ∧
    s.ptu.muteMain = s.une.muteMain ∧ s.ptu.muteSolo = s.une.muteSolo ∧
    s.efu.shoes = s.isu.shoes

/-- R124: the SET held flag is true while at least one pressed input has the function SET. -/
abbrev State.setHeldLaw (s : State) : Prop :=
  s.rgu.setHeld = true ↔ ∃ p ∈ List.range 64, nth s.rgu.pressed p false = true ∧
    nth s.rgu.pistons p .none = .set

/-- R71 and R66 for one unit: the Strike Queue holds exactly the QUEUED notes, each once; the count
striking is the number of STRIKING notes and is within the budget. -/
abbrev PercUnit.strikeLaw (x : PercUnit) : Prop :=
  x.queue.Nodup ∧ (∀ i ∈ x.queue, i < 49) ∧
    (∀ i ∈ List.range 49, (x.note i).state = .queued ↔ i ∈ x.queue) ∧
    x.striking = ((List.range 49).filter (fun i => (x.note i).state = .striking)).length ∧
    (∀ e ∈ x.entry.entry?, e.count ≤ 49 ∧ x.striking ≤ e.budget)

/-- R71 for every unit. -/
abbrev State.strikeLaw (s : State) : Prop := ∀ u ∈ List.range 8, (s.ptu.unit u).strikeLaw

/-- R78, R79: the damper output of a valid unit that has a damper is requested exactly while its mode
wants it: ALWAYS, or for KEY while the damper demand is above 0 or a note is QUEUED or STRIKING. -/
abbrev State.damperLaw (s : State) : Prop :=
  ∀ u ∈ List.range 8, ∀ e ∈ (s.ptu.unit u).entry.entry?, e.damper ≠ none →
    (s.ptu.unit u).damperOn = (e.damperMode == .always || e.damperMode == .key &&
      (decide (0 < (s.ptu.unit u).damperDemand) || decide ((s.ptu.unit u).queue ≠ []) ||
        decide (0 < (s.ptu.unit u).striking)))

/-- R103: a slave's master is another tremulant, FREE while it is valid: a cascade is one deep. -/
abbrev State.cascadeLaw (s : State) : Prop :=
  ∀ t ∈ List.range 12, ∀ e ∈ (s.efu.trem t).entry.entry?,
    match e.source with
    | .free => True
    | .slave master _ => master ≠ t ∧
      ∀ m ∈ (s.efu.trem master).entry.entry?, m.source = .free

/-- R90: a trap channel's output is requested exactly when its condition holds. -/
abbrev State.trapLaw (s : State) : Prop :=
  ∀ c ∈ List.range 32, (s.ptu.trap c).out = (s.ptu.trap c).outWanted s.ptu.muted

/-- R108 for one tremulant: its output is on exactly in the on phases of PULSING and in ENDING, ENDING
lasts only within an on phase, and an invalid tremulant is IDLE. -/
abbrev Trem.gateLaw (t : Trem) : Prop :=
  t.out = ((t.gating == .pulsing && t.phaseOn) || t.gating == .ending) ∧
    (t.gating = .ending → t.phaseOn = true) ∧ (t.entry.entry? = none → t.gating = .idle)

/-- R108 for every tremulant. -/
abbrev State.gateLaw (s : State) : Prop := ∀ t ∈ List.range 12, (s.efu.trem t).gateLaw

/-- R117 for one channel: L and A lie in 0..63 and T and C in 0..S; and with no step timer running, C
stands at T (R116). -/
abbrev Expr.stageLaw (x : Expr) : Prop :=
  ∀ e ∈ x.entry.entry?, x.level ≤ 63 ∧ x.accepted ≤ 63 ∧ x.target ≤ e.stages ∧
    x.current ≤ e.stages ∧ (x.timer = none → x.current = x.target)

/-- R117 for both channels; a shoe position is a byte (R112). -/
abbrev State.stageLaw (s : State) : Prop :=
  (∀ x ∈ List.range 2, (s.efu.expr x).stageLaw) ∧ ∀ i ∈ List.range 4, s.efu.shoe i ≤ 255

/-! ## The laws of demand and of requests -/

/-- The pair of stop `st` and key `k` is live and its target satisfies `p`. -/
def State.calls (s : State) (p : Target → Bool) (st k : Nat) : Bool :=
  s.une.live s.ptu st k && match s.une.stop st with
    | .invalid _ => false
    | .valid e => (s.une.target s.ptu e k).any p

/-- The number of live contributions whose target satisfies `p`. -/
def State.callersOf (s : State) (p : Target → Bool) : Nat :=
  ((List.range 256).map fun st =>
    ((List.range 61).filter (s.calls p st)).length).sum

/-- The number of live contributions that call pipe `i` of rank `r` (R48). -/
def State.callers (s : State) (r i : Nat) : Nat := s.callersOf (· == .pipe r i)

/-- R48: each pipe's demand count equals the number of its live contributions, plus one if its direct
flag is set. -/
abbrev State.demandLaw (s : State) : Prop :=
  ∀ r ∈ List.range 32, ∀ e ∈ (s.une.rank r).entry?, ∀ i ∈ List.range e.count,
    s.une.count r i = s.callers r i + if s.une.directFlag r i then 1 else 0

/-- R50, R51: a pair has at most one window, and each window is of a live contribution of a PIZZICATO
stop. -/
abbrev State.windowLaw (s : State) : Prop :=
  (s.une.pizz.map (fun z => (z.stop, z.key))).Nodup ∧
    ∀ z ∈ s.une.pizz, z.key < 61 ∧ s.une.live s.ptu z.stop z.key = true ∧
      ∃ e ∈ (s.une.stop z.stop).entry?, e.plucked = true

/-- R22, R24, R28, R64: the entries the pitch arithmetic reads lie in their ranges. -/
abbrev State.compassLaw (s : State) : Prop :=
  (∀ st ∈ List.range 256, ∀ e ∈ (s.une.stop st).entry?, e.division ≤ 4 ∧
      (e.kind ≠ .tremulant → e.highKey ≤ lastKey e.division)) ∧
    (∀ r ∈ List.range 32, ∀ e ∈ (s.une.rank r).entry?, e.count ≤ 97) ∧
    ∀ u ∈ List.range 8, ∀ e ∈ (s.ptu.unit u).entry.entry?, e.count ≤ 49

/-- The laws that the demand counts rest on: R48 itself, the windows, the ranges of the entries, and the
held-key image's agreement with the ISU (R42). -/
abbrev State.demandSound (s : State) : Prop :=
  s.demandLaw ∧ s.windowLaw ∧ s.compassLaw ∧ s.une.heldKeys = s.isu.touch

/-- R66, R72, R75: a valid unit's damper demand is the number of live contributions to its notes, each
note's reiteration demand the number of live REITERATE ones to it, and the reiterator runs exactly while
their total is above 0. -/
abbrev State.percussionDemandLaw (s : State) : Prop :=
  ∀ u ∈ List.range 8, ∀ e ∈ (s.ptu.unit u).entry.entry?,
    (s.ptu.unit u).damperDemand = s.callersOf (fun
      | .note u' _ _ => u' == u
      | _ => false) ∧
    (∀ i ∈ List.range 49, ((s.ptu.unit u).note i).reiteration = s.callersOf (fun
      | .note u' i' mode => u' == u && i' == i && mode == .reiterate
      | _ => false)) ∧
    ((s.ptu.unit u).reiterator.running = true ↔
      0 < ((List.range 49).map fun i => ((s.ptu.unit u).note i).reiteration).sum)

/-- R86: each channel's demand is its live TRAP contributions, the studs held down that name it, and its
cue hold. -/
abbrev State.trapDemandLaw (s : State) : Prop :=
  ∀ c ∈ List.range 32, (s.ptu.trap c).demand =
    s.callersOf (fun
      | .trap c' => c' == c
      | _ => false) +
    ((List.range 32).filter fun st =>
      nth s.ptu.heldStuds st false && nth s.ptu.studs st none == some c).length +
    (if (s.ptu.trap c).cueHold then 1 else 0)

/-- R107: each tremulant's demand is the number of its TREMULANT stops that are ON, while its own entry is
valid, and 0 while it is not. -/
abbrev State.tremulantDemandLaw (s : State) : Prop :=
  ∀ t ∈ List.range 12, (s.efu.trem t).demand =
    if (s.efu.trem t).entry.entry? = none then 0
    else ((List.range 256).filter fun st =>
      s.une.isOn st && match s.une.stop st with
        | .invalid _ => false
        | .valid e => e.kind == .tremulant && e.target == t).length

/-- R156: the pipes that request output `o`: wanted pipes of unmuted valid ranks (R49). -/
def State.pipesOn (s : State) (o : Nat) : Nat :=
  ((List.range 32).map fun r =>
    match s.une.rank r with
    | .invalid _ => 0
    | .valid e =>
      ((List.range e.count).filter fun i =>
        e.firstOut + i = o && decide (0 < s.une.count r i) && !s.une.muted e.chamber).length).sum

/-- R156: the percussion notes that strike (R68) and the dampers that are on (R78). -/
def State.percussionsOn (s : State) (o : Nat) : Nat :=
  ((List.range 8).map fun u =>
    match (s.ptu.unit u).entry with
    | .invalid _ => 0
    | .valid e =>
      ((List.range 49).filter fun i =>
        e.firstOut + i = o && ((s.ptu.unit u).note i).state = .striking).length +
      (if e.damper = some o ∧ (s.ptu.unit u).damperOn then 1 else 0)).sum

/-- R156: the trap channels whose output is on (R90). -/
def State.trapsOn (s : State) (o : Nat) : Nat :=
  ((List.range 32).filter fun c =>
    match (s.ptu.trap c).entry with
    | .invalid _ => false
    | .valid e => e.output = o && (s.ptu.trap c).out).length

/-- R156: the tremulants whose output is on (R108). -/
def State.tremulantsOn (s : State) (o : Nat) : Nat :=
  ((List.range 12).filter fun t =>
    match (s.efu.trem t).entry with
    | .invalid _ => false
    | .valid e => e.output = o && (s.efu.trem t).out).length

/-- R156: the expression stages up to each channel's current stage (R117). -/
def State.stagesOn (s : State) (o : Nat) : Nat :=
  ((List.range 2).filter fun x =>
    match (s.efu.expr x).entry with
    | .invalid _ => false
    | .valid e => e.firstOut ≤ o && o < e.firstOut + (s.efu.expr x).current).length

/-- R157: each logical output's request count equals the number of sources that request it. -/
abbrev State.requestLaw (s : State) : Prop :=
  ∀ o < 4096, s.omu.count o =
    s.pipesOn o + s.percussionsOn o + s.trapsOn o + s.tremulantsOn o + s.stagesOn o

/-! ## The law of the output image -/

/-- R158: a valid Output Map entry names a point of its link, and no two name one point. -/
abbrev Omu.placeLaw (m : Omu) : Prop :=
  ∀ o < 4096, ∀ e ∈ (m.entry o).entry?, e.board < 32 ∧ e.point < 64 ∧
    ∀ o' < 4096, ∀ e' ∈ (m.entry o').entry?, e'.place = e.place → o' = o

/-- R160: each mapped point's level is (count above 0) XOR invert, and unmapped points are 0. -/
def Omu.imageLaw (m : Omu) : Prop :=
  (∀ o < 4096, ∀ e ∈ (m.entry o).entry?, m.levelAt e.place = (decide (0 < m.count o) != e.invert)) ∧
    ∀ link board point, board < 32 → point < 64 →
      (∀ o < 4096, ∀ e ∈ (m.entry o).entry?, e.place ≠ (link, board, point)) →
      m.levelAt (link, board, point) = false

/-- R158 and R160. -/
abbrev State.outputLaw (s : State) : Prop := s.omu.placeLaw ∧ s.omu.imageLaw

/-! ## What a load leaves -/

/-- No stop that is ON plays number `t` of a kind. -/
abbrev State.noCaller (s : State) (kind : StopKind) (t : Nat) : Prop :=
  ∀ st < 256, ∀ e ∈ (s.une.stop st).entry?, e.kind = kind → e.target = t → s.une.isOn st = false

/-- R4, R5, R133: after a Board Map load the board is AWAITED, or UNUSED with an invalid entry, with its
timer stopped and its contacts all-up and unsuppressed; the shoes keep their positions. What a valid old entry
was contributing has been undone first: its accepted contacts have been forced up, with the events this sends,
and a TABS entry takes its pending drives, with their waits, and its stops' settling with it. -/
def State.boardLoaded (s s' : State) (i : Nat) : Prop :=
  let x := s'.isu.board i
  x.state = (if x.entry.entry?.isSome then .awaited else .unused) ∧ x.silence = none ∧
    (∀ c < 64, x.contact c = ⟨false, 0, false⟩) ∧
    (∀ j < 32, j ≠ i → s'.isu.board j = s.isu.board j) ∧ s'.isu.shoes = s.isu.shoes ∧
    (∀ e ∈ (s.isu.board i).entry.entry?, s.forcedUp s' i e) ∧
    ((s.isu.board i).entry.entry? = none → s'.isu.touch = s.isu.touch ∧
      s' = { s with isu := s'.isu, fiu := s'.fiu }) ∧
    (∀ e ∈ (s.isu.board i).entry.entry?, e.kind = .tabs →
      s'.fiu = { s.fiu with rx := .hunting, replies := s.unwaited s' } ∧ s'.rgu = { s.rgu with
        tabQueue := s.rgu.tabQueue.filter fun q => q.board != i,
        settle := s.rgu.settle.filter fun y => !inSpan e.first e.count y.stop }) ∧
    ((∀ e ∈ (s.isu.board i).entry.entry?, e.kind ≠ .tabs) →
      s'.fiu = { s.fiu with rx := .hunting } ∧
        s'.rgu.tabQueue = s.rgu.tabQueue ∧ s'.rgu.settle = s.rgu.settle)

/-- R65: after a Percussion Table load the unit's engine is as the reapply alone has left it: no note is
RESTING or pending, a STRIKING one has its whole pulse before it, none strikes in a muted chamber, and the
reiterator's counter is at 0. With no stop to reapply every note is IDLE and only an ALWAYS damper is on. -/
def State.percLoaded (s s' : State) (i : Nat) : Prop :=
  let x := s'.ptu.unit i
  s'.une = s.une ∧ s'.ptu.traps = s.ptu.traps ∧
    (∀ u < 8, u ≠ i → s'.ptu.unit u = s.ptu.unit u) ∧
    (∀ n < 49, (x.note n).pending = false ∧ (x.note n).state ≠ .resting) ∧
    (∀ e ∈ x.entry.entry?, ∀ n < 49, (x.note n).state = .striking →
      (x.note n).timer = 4 * e.pulse ∧ s.ptu.muted e.chamber = false) ∧
    x.reiterator.counter = 0 ∧ x.reiterator.due = false ∧
    (s.noCaller .percussion i →
      (∀ n < 49, (x.note n).state = .idle ∧ (x.note n).reiteration = 0) ∧ x.queue = [] ∧
        x.striking = 0 ∧ x.damperDemand = 0 ∧ x.reiterator.running = false ∧
        (x.damperOn = true ↔
          ∃ e ∈ x.entry.entry?, e.damper ≠ none ∧ e.damperMode = .always))

/-- R90, R96: after a Trap Table load the channel is restarted and has taken its standing demand by the new
mode: it is not RESTING or pending, a blow has its whole pulse before it, and its output follows R90. With no
stop to reapply its demand, that of studs and the cue hold, stands, its count is 0, and it is struck and
rolls only in REITERATE with demand. -/
def State.trapLoaded (s s' : State) (i : Nat) : Prop :=
  let x := s'.ptu.trap i
  let rolls := ∃ e ∈ x.entry.entry?, e.mode = .reiterate ∧ 0 < x.demand
  s'.une = s.une ∧ s'.ptu.units = s.ptu.units ∧
    (∀ c < 32, c ≠ i → s'.ptu.trap c = s.ptu.trap c) ∧
    x.cueHold = (s.ptu.trap i).cueHold ∧ x.pending = false ∧ (x.state = .idle ∨ x.state = .striking) ∧
    (∀ e ∈ x.entry.entry?, x.state = .striking →
      x.timer = 4 * e.pulse ∧ s.ptu.muted e.chamber = false) ∧
    x.out = x.outWanted s.ptu.muted ∧
    (s.noCaller .trap i →
      x.demand = (s.ptu.trap i).demand ∧ x.remaining = 0 ∧
        (rolls → x.beat = ⟨true, 0, false⟩ ∧ ∀ e ∈ x.entry.entry?,
          s.ptu.muted e.chamber = false → x.state = .striking) ∧
        (¬ rolls → x.beat = ⟨false, 0, false⟩ ∧ x.state = .idle))

/-- R97: a Stud Table load moves the demand of a stud that is held down, and no other; nothing is
triggered. -/
def State.studLoaded (s s' : State) (i : Nat) : Prop :=
  s'.ptu.heldStuds = s.ptu.heldStuds ∧ s'.ptu.units = s.ptu.units ∧
    (nth s.ptu.heldStuds i false = false → s'.ptu.traps = s.ptu.traps) ∧
    (nth s.ptu.heldStuds i false = true → ∀ c < 32, (s'.ptu.trap c).demand =
      (s.ptu.trap c).demand - (if nth s.ptu.studs i none = some c then 1 else 0) +
        if nth s'.ptu.studs i none = some c then 1 else 0)

/-- R107, R108, R110: after a Tremulant Table load the output is off and the generator at the start of an OFF
phase; the tremulant is WAITING where a stop calls it again, else IDLE; no other is restarted. -/
def State.tremLoaded (s s' : State) (i : Nat) : Prop :=
  let x := s'.efu.trem i
  s'.une = s.une ∧ s'.efu.exprs = s.efu.exprs ∧
    (∀ t < 12, t ≠ i → s'.efu.trem t = s.efu.trem t) ∧
    x.out = false ∧ x.phaseOn = false ∧ x.counter = 0 ∧ (x.gating = .idle ∨ x.gating = .waiting) ∧
    (∀ e ∈ x.entry.entry?, x.length = e.offLength) ∧
    (x.entry.entry? = none ∨ s.noCaller .tremulant i → x.gating = .idle) ∧
    (s.tremulantDemandLaw → ∀ e ∈ x.entry.entry?, (x.gating = .waiting ↔ 0 < x.demand))

/-- R118, R119: after an Expression Table load the channel starts from stage 0 with a fresh reading of its
source shoe. -/
def State.exprLoaded (s s' : State) (i : Nat) : Prop :=
  let x := s'.efu.expr i
  s'.efu.trems = s.efu.trems ∧ s'.efu.shoes = s.efu.shoes ∧
    (∀ j < 2, j ≠ i → s'.efu.expr j = s.efu.expr j) ∧
    (x.entry.entry? = none → x = ⟨x.entry, 0, 0, 0, 0, none⟩) ∧
    ∀ e ∈ x.entry.entry?,
      let level := levelOf e.curve (s.efu.shoe e.shoe)
      let target := targetOf e.stages level
      x = ⟨x.entry, level, level, target, if e.slew = 0 then target else 0,
        if e.slew ≠ 0 ∧ target ≠ 0 then some e.slew else none⟩

/-- R159: after an Output Map load the old entry's point is at 0 unless the new entry names it too, the new
entry's point is at the output's level, and no other point has moved; then the board of each of the two points
whose level has changed has joined its link's queue, the old point's before the new one's (R161, R162). -/
def State.outputLoaded (s s' : State) (o : Nat) : Prop :=
  let old := (s.omu.entry o).entry?.map MapEntry.place
  let new := (s'.omu.entry o).entry?.map MapEntry.place
  let changed := (old.toList ++ if new = old then [] else new.toList).filter fun p =>
    s'.omu.levelAt p != s.omu.levelAt p
  unchangedBut [.omu, .fiu] s s' ∧
    (∀ p, some p ≠ old → some p ≠ new → s'.omu.levelAt p = s.omu.levelAt p) ∧
    (∀ p ∈ old, new ≠ some p → s'.omu.levelAt p = false) ∧
    (∀ e ∈ (s'.omu.entry o).entry?, s'.omu.levelAt e.place = (decide (0 < s.omu.count o) != e.invert)) ∧
    s'.omu = changed.foldl (fun m p => m.appendBoard p.1 p.2.1) { s.omu with
      map := s'.omu.map
      main := { s.omu.main with image := s'.omu.main.image }
      solo := { s.omu.solo with image := s'.omu.solo.image } }

/-- What a load that is taken leaves of the unit that owns the table, beside the entry itself. -/
def State.loaded (s s' : State) (i : Nat) : TableId → Prop
  | .board => s.boardLoaded s' i
  | .stop => s'.une.stopOn = s.une.stopOn ∧ s'.une.heldKeys = s.une.heldKeys ∧
      s'.une.direct = s.une.direct
  | .rank => (∀ k < 97, s'.une.directFlag i k = false) ∧
      ∀ r < 32, r ≠ i → ∀ k < 97, s'.une.directFlag r k = s.une.directFlag r k ∧
        s'.une.count r k = s.une.count r k
  | .perc => s.percLoaded s' i
  | .trap => s.trapLoaded s' i
  | .stud => s.studLoaded s' i
  | .trem => s.tremLoaded s' i
  | .expr => s.exprLoaded s' i
  | .piston => s'.rgu = { s.rgu with pistons := s'.rgu.pistons, setHeld := s'.rgu.setHeld } ∧
      (s'.rgu.setHeld = true ↔ ∃ p < 64, nth s.rgu.pressed p false = true ∧
        nth s'.rgu.pistons p .none = .set)
  | .settings => unchangedBut [.settings, .cmu, .fiu] s s'
  | .output => s.outputLoaded s' i

/-! ## The start-up load -/

/-- R141: the bytes at which an array stores entry `i` of a table. -/
def TableId.storedAt (table : TableId) (array : List Host.Cell) (i : Nat) : List Byte :=
  (List.range table.entrySize).map fun k =>
    blockByte array (table.firstBlock + i / table.perBlock)
      (4 + i % table.perBlock * table.entrySize + k)

/-- R142: a block of an array is read as good. -/
def blockGood (array : List Host.Cell) (b : Nat) : Prop :=
  ∃ image, judgeBlock b (readBlock array b) = .good image

/-- R151: every block of a table is good. -/
def TableId.allGood (table : TableId) (array : List Host.Cell) : Prop :=
  ∀ n < table.blocks, blockGood array (table.firstBlock + n)

/-- R151: the configuration region is wholly blank, as in a new part. -/
def regionBlank (array : List Host.Cell) : Prop :=
  ∀ n < configBlocks, judgeBlock (configStart + n) (readBlock array (configStart + n)) = .blank

/-- R151: the stored entry `i` of a table is refused by its owner, with RANGE or with CONFLICT. -/
def State.refusesStored (t : State) (array : List Host.Cell) (table : TableId) (i : Nat) : Prop :=
  table.stored (table.storedAt array i) = none ∨
    t.loadConflict table i (table.storedAt array i) = true

/-- R151: the start-up load finds a fault in block `b`: it is blank or failing, or, in a table whose blocks
are all good, it holds an entry that is refused. A wholly blank region has no fault. -/
def State.startFault (t : State) (array : List Host.Cell) (b : Nat) : Prop :=
  ¬ regionBlank array ∧ ∃ (table : TableId) (n : Nat), n < table.blocks ∧ b = table.firstBlock + n ∧
    (¬ blockGood array b ∨ table.allGood array ∧
      ∃ i < table.size, i / table.perBlock = n ∧ t.refusesStored array table i)

/-- R151, R152, R158: what the start-up load has delivered from an array. Each entry of a table whose blocks
are all good reads as it is stored; one that its owner refuses, and every entry of another table, reads as
after a reset: invalid or NONE, and for the Settings the defaults. STORE FAULT stands where a fault was
found, with the last such block. (That an entry which is not delivered reads as zero bytes is assumption 6.
A CONFLICT is with entries delivered before; of two entries in conflict one alone is taken, so that it can be
told from what stands after the load.) -/
def State.delivered (t : State) (array : List Host.Cell) : Prop :=
  (∀ (table : TableId) (i : Nat), i < table.size →
    (table.allGood array → ∀ bs, table.stored (table.storedAt array i) = some bs →
      t.loadConflict table i (table.storedAt array i) = false → t.entryBytes table i = bs) ∧
    (¬ table.allGood array ∨ t.refusesStored array table i →
      t.entryBytes table i = State.reset.entryBytes table i)) ∧
    (∀ b, t.cmu.lastFaulted = some b ↔
      t.startFault array b ∧ ∀ b', t.startFault array b' → b' ≤ b) ∧
    t.cmu.causes = if t.cmu.lastFaulted.isSome then 0x20#8 else 0

end Sys2Proof.Machine
end

