-- ==== Sys2Proof/Certificates/Slice0/Obligations.lean ====
section
/-! DEFINITION. The statements for the provers. In each, `s.frameEnded` is the state with the FIU hunting
again after the command's frame (R166), `replied` places the reply and lets the arbiter choose, and
`arbitrate` alone ends an event that is answered by no reply (R168, the statement ArbiterChooses). A frame
is taken with no fill in progress; one that meets a fill waits for its end (FillTakesItsLoads). -/

section

open Sys2Proof Sys2Proof.Machine

/-! ## The queue, the outcomes, commands turned away -/

/-- A step carries out the command at the front of the queue on the state with the queue's rest. That the
part idles while no command waits, no byte has come and no fill is in progress is the model's choice
(assumption 10), and so is that a part that is held stopped loses the bytes that come (assumption 17). -/
def Obligations.StepTakesFrontCommand : Prop :=
  (∀ (c : Instr) (q : List Instr) (s : State), s.pending = c :: q →
      step s = exec c { s with pending := q }) ∧
    (∀ s : State, s.pending = [] → s.inbound = [] → s.stopped = true ∨ s.cmu.fill = none →
      step s = .next s) ∧
    ∀ (s : State) (b : Byte) (rest : List Byte), s.pending = [] → s.stopped = true →
      s.inbound = b :: rest → step s = .next { s with inbound := rest }

/-- Every command and event is carried out to a next state, which keeps the queue and the bytes on the line,
unless the end of an operation of the array meets a block number that R140 does not give the array: that it
stops there is the model's choice (assumption 36), and no run meets one. No command is refused. -/
def Obligations.EveryCommandCompletes : Prop :=
  ∀ (c : Instr) (s : State),
    ((∀ w ∈ s.msu.queue.head?, w.block < arrayBlocks) →
      ∃ t : State, exec c s = .next t ∧ t.pending = s.pending ∧ t.inbound = s.inbound) ∧
    (∀ f, exec c s = .fault f → ∃ w ∈ s.msu.queue.head?, f = .noSuchBlock w.block ∧
      arrayBlocks ≤ w.block) ∧
    ∀ r, exec c s ≠ .refused r

/-- The checks that come before a command's own: a full Reply Queue discards the frame with FRAME ERROR
(R167); then UNKNOWN, LENGTH and BUSY, in the order of R169, each answered with no data and no other
change. -/
def Obligations.CommandsTurnedAway : Prop :=
  (∀ (c : Instr) (s : State) panel id ordered fits,
      c.commandForm = some (panel, id, ordered, fits) → s.running → s.cmu.fill = none →
      (replyCapacity ≤ s.fiu.replies.length → exec c s = .next
        { s with fiu := { s.fiu with rx := .hunting },
                 cmu := { s.cmu with causes := s.cmu.causes ||| 0x04#8 } }.arbitrate) ∧
      (s.fiu.replies.length < replyCapacity → fits = false →
        exec c s = .next (s.frameEnded.replied panel id ordered .length [])) ∧
      (s.fiu.replies.length < replyCapacity → fits = true →
        s.cmu.started = false ∨ s.cmu.restartPending = true →
        exec c s = .next (s.frameEnded.replied panel id ordered .busy []))) ∧
    ∀ (panel : Byte) (payload : List Byte) (s : State), s.running → s.cmu.fill = none →
      commandOf panel payload = .unknownCommand panel payload →
      (replyCapacity ≤ s.fiu.replies.length → exec (.unknownCommand panel payload) s = .next
        { s with fiu := { s.fiu with rx := .hunting },
                 cmu := { s.cmu with causes := s.cmu.causes ||| 0x04#8 } }.arbitrate) ∧
      (s.fiu.replies.length < replyCapacity → exec (.unknownCommand panel payload) s = .next
        (s.frameEnded.replied panel (payload.getD 0 0) false .unknown []))

/-! ## Start, time -/

/-- START ends all work, sets every unit to its reset value and delivers the store: each table whose blocks
are all good as it is stored, another table all-invalid or NONE, Settings or their defaults, with STORE FAULT
for the last block found at fault (R151, R152, R158; what an entry not delivered reads as is assumption 6).
Where the configuration region is wholly blank, as in a new part, nothing else is left and the array stands.
START_AFRESH does so once its two conditions are met, keeps the array and lets the frames on the lines
complete (R164, R172); before that it does not occur. -/
def Obligations.StartsResetUnits : Prop :=
  (∀ s : State, s.msu.cutBlock = none →
    (∀ n < configBlocks, blockByte s.msu.array (configStart + n) 0 ≠ markerRecord ∧
      blockByte s.msu.array (configStart + n) 0 ≠ markerTable) →
    exec .start s = .next { State.reset with
      msu := Msu.reset s.msu.array, free := s.free, pending := s.pending, inbound := s.inbound }) ∧
    (∀ s : State, ∃ t : State, exec .start s = .next t ∧ t.freshlyStarted (s.msu.cutArray s.free) ∧
      t.delivered (s.msu.cutArray s.free) ∧ t.pending = s.pending ∧ t.inbound = s.inbound ∧ t.fiu.line = .idle ∧ t.omu.main.line = none ∧
      t.omu.solo.line = none) ∧
    (∀ s : State, s.running → s.cmu.restartPending = true → s.cmu.restartSent = true →
      s.msu.queue = [] → s.msu.job.outcome ≠ .running →
      ∃ t : State, exec .startAfresh s = .next t ∧ t.freshlyStarted s.msu.array ∧
        t.delivered s.msu.array ∧ t.pending = s.pending ∧ t.inbound = s.inbound ∧
        t.fiu.line.frame? = s.fiu.line.frame? ∧ t.omu.main.line = s.omu.main.line ∧
        t.omu.solo.line = s.omu.solo.line) ∧
    ∀ s : State, s.running → s.cmu.restartPending = false ∨ s.cmu.restartSent = false ∨
      s.msu.queue ≠ [] ∨ s.msu.job.outcome = .running →
      exec .startAfresh s = .next s.arbitrate

/-- START_DONE raises START DONE, sets the started flag and the enable set, starts the refresh timer,
releases both transmitters and sweeps: an IDLE transmitter takes the head of its queue with its levels as they
stand, and then each present board that is not in the queue joins its tail in ascending order; on a link that
had nothing to send the lowest present board's frame is on the line with the others behind it (R151, R162,
R163, R164). -/
def Obligations.StartDoneOpensPart : Prop :=
  ∀ s : State, s.running →
    (s.cmu.started = true → exec .startDone s = .next s.arbitrate) ∧
    (s.cmu.started = false → ∃ s' : State, exec .startDone s = .next s'.arbitrate ∧
      unchangedBut [.cmu, .omu] s s' ∧
      s'.cmu = { s.cmu with
        causes := s.cmu.causes ||| 0x80#8, enable := s.settings.enable, started := true } ∧
      s'.omu.counts = s.omu.counts ∧ s'.omu.map = s.omu.map ∧
      s'.omu.refresh = some s.settings.refresh ∧
      ∀ link,
        let present := match link with
          | .main => s.settings.mainBoards
          | .solo => s.settings.soloBoards
        let l := s.omu.link link
        let l' := s'.omu.link link
        let swept (queue : List Nat) : List Nat :=
          queue ++ (List.range 32).filter fun b => present.getLsbD b && decide (b ∉ queue)
        l'.held = false ∧ l'.image = l.image ∧
        (l.line ≠ none → l'.line = l.line ∧ l'.queue = swept l.queue) ∧
        (∀ b rest, l.line = none → l.queue = b :: rest →
          l'.line = some ⟨b, l.levels b⟩ ∧ l'.queue = swept rest) ∧
        (l.queue = [] → l.line = none →
          match (List.range 32).filter (fun b => present.getLsbD b) with
          | [] => l'.line = none ∧ l'.queue = []
          | b :: rest => l'.line = some ⟨b, l.levels b⟩ ∧ l'.queue = rest))

/-- POWER_LOSS stops every unit, keeps the array but for a block being erased or programmed, and leaves
that block in a state that does not read as good (R153). A part that is held stopped takes nothing but
START and POWER_LOSS. That stopped units show their reset values is the model's choice (assumption 17). -/
def Obligations.PowerLossStopsPart : Prop :=
  (∀ (c : Instr) (s : State), s.stopped = true → c ≠ .start → c ≠ .powerLoss →
    exec c s = .next s) ∧
  ∀ s : State,
    (∃ t : State, exec .powerLoss s = .next t ∧ t.stopped = true ∧
      t = { State.reset with
        msu := Msu.reset t.msu.array, free := t.free, pending := s.pending, inbound := s.inbound,
        stopped := true } ∧
      (s.memoryLaw → ∀ a, (∀ b ∈ s.msu.cutBlock, a / blockBytes ≠ b) →
        Memory.read t.msu.array a = Memory.read s.msu.array a) ∧
      (s.memoryLaw → ∀ b ∈ s.msu.cutBlock, b < arrayBlocks →
        ∀ image, judgeBlock b (readBlock t.msu.array b) ≠ .good image)) ∧
    ∀ w rest, s.msu.queue = w :: rest →
      ((s.msu.engine = .erasing ∨ s.msu.engine = .programming → s.msu.cutBlock = some w.block) ∧
        (s.msu.engine = .idle ∨ s.msu.engine = .verifying → s.msu.cutBlock = none))

/-- MS_STEP advances the tick count, which wraps, and with it the timers that count ticks, the gap of an
unfinished inbound frame and the marks of the expiries that are reached; at a tick whose count is a multiple
of 4 the timers that count ms steps advance too, and at no other (R1, R6, R75, R92, R101, R163, R166). That an end which is due stands
until its event is taken is the model's choice (assumption 5). -/
def Obligations.TickAdvancesTimers : Prop :=
  ∀ s : State, s.running → ∃ s' : State, exec .msStep s = .next s'.arbitrate ∧
    unchangedBut [.tick, .isu, .une, .ptu, .efu, .rgu, .omu, .fiu] s s' ∧
    s'.tick = s.tick + 1 ∧
    s'.fiu = { s.fiu with rx := match s.fiu.rx with
      | .hunting => .hunting
      | .partway bytes quiet => .partway bytes (min 4 (quiet + 1)) } ∧
    s'.une = { s.une with pizz := s.une.pizz.map (fun z =>
      { z with reached := z.reached || z.expiry == s.tick + 1 }) } ∧
    s'.rgu = { s.rgu with settle := s.rgu.settle.map (fun x =>
      { x with reached := x.reached || x.expiry == some (s.tick + 1) }) } ∧
    (∀ u < 8, ∀ i < 49, (s'.ptu.unit u).note i =
      { (s.ptu.unit u).note i with timer := ((s.ptu.unit u).note i).timer - 1 }) ∧
    (∀ u < 8, s'.ptu.unit u = { s.ptu.unit u with
      notes := (s'.ptu.unit u).notes, reiterator := (s'.ptu.unit u).reiterator }) ∧
    (∀ c < 32, s'.ptu.trap c = { s.ptu.trap c with
      timer := (s.ptu.trap c).timer - 1, beat := (s'.ptu.trap c).beat }) ∧
    s'.ptu = { s.ptu with units := s'.ptu.units, traps := s'.ptu.traps } ∧
    ((s.tick + 1).toNat % 4 ≠ 0 →
      s'.isu = s.isu ∧ s'.efu = s.efu ∧ s'.omu = s.omu ∧
      (∀ u < 8, (s'.ptu.unit u).reiterator = (s.ptu.unit u).reiterator) ∧
      ∀ c < 32, (s'.ptu.trap c).beat = (s.ptu.trap c).beat) ∧
    ((s.tick + 1).toNat % 4 = 0 →
      (∀ b < 32, ∀ e ∈ (s.isu.board b).entry.entry?, ∀ n, (s.isu.board b).silence = some n →
        s'.isu.board b = { s.isu.board b with silence := some (min (n + 1) (max n e.timeout)) }) ∧
      (∀ b < 32, (s.isu.board b).silence = none → s'.isu.board b = s.isu.board b) ∧
      s'.isu.touch = s.isu.touch ∧ s'.isu.shoes = s.isu.shoes ∧
      (∀ u < 8, ∀ e ∈ (s.ptu.unit u).entry.entry?,
        (s.ptu.unit u).reiterator.stepsTo e.interval (s'.ptu.unit u).reiterator) ∧
      (∀ c < 32, ∀ e ∈ (s.ptu.trap c).entry.entry?,
        (s.ptu.trap c).beat.stepsTo e.interval (s'.ptu.trap c).beat) ∧
      (∀ t < 12, ∀ e ∈ (s.efu.trem t).entry.entry?, s'.efu.trem t = { s.efu.trem t with
        counter := if e.source = .free ∧ (s.efu.trem t).counter < (s.efu.trem t).length
          then (s.efu.trem t).counter + 1 else (s.efu.trem t).counter }) ∧
      (∀ x < 2, s'.efu.expr x = { s.efu.expr x with
        timer := (s.efu.expr x).timer.map (· - 1) }) ∧
      s'.efu.shoes = s.efu.shoes ∧
      s'.omu = { s.omu with refresh := s.omu.refresh.map (· - 1) })

/-! ## The inbound line and the ISU -/

/-- Frames that change no contact. A bad frame, and an unfinished one whose next byte has failed to arrive
within 4 ticks, are discarded with FRAME ERROR (R166); a scan frame is discarded before START DONE and for
an invalid entry with no cause, and for an address above 31 or a wrong length with FRAME ERROR, restarting a
LIVE board's silence timer (R7). That a gap which is not due, or of another frame than the one that stands
partway, does nothing is the model's choice (assumptions 5 and 19). -/
def Obligations.InboundFramesDiscarded : Prop :=
  ∀ s : State, s.running →
    let hunting : Fiu := { s.fiu with rx := .hunting }
    let frameError : Cmu := { s.cmu with causes := s.cmu.causes ||| 0x04#8 }
    (∀ bytes, receive bytes = .bad →
      exec (.badFrame bytes) s = .next { s with fiu := hunting, cmu := frameError }.arbitrate) ∧
    (∀ bytes quiet, s.fiu.rx = .partway bytes quiet →
      (4 ≤ quiet → exec (.byteGap bytes) s =
        .next { s with fiu := hunting, cmu := frameError }.arbitrate) ∧
      (quiet < 4 → exec (.byteGap bytes) s = .next s.arbitrate) ∧
      ∀ other, other ≠ bytes → exec (.byteGap other) s = .next s.arbitrate) ∧
    (∀ bytes, s.fiu.rx = .hunting → exec (.byteGap bytes) s = .next s.arbitrate) ∧
    (∀ address payload, s.cmu.fill = none → s.cmu.started = false →
      exec (.scanFrame address payload) s = .next { s with fiu := hunting }.arbitrate) ∧
    ∀ (address : Byte) payload, s.cmu.fill = none → s.cmu.started = true →
      (31 < address.toNat → exec (.scanFrame address payload) s =
        .next { s with fiu := hunting, cmu := frameError }.arbitrate) ∧
      (address.toNat ≤ 31 → (s.isu.board address.toNat).entry.entry? = none →
        exec (.scanFrame address payload) s = .next { s with fiu := hunting }.arbitrate) ∧
      ∀ e, address.toNat ≤ 31 → (s.isu.board address.toNat).entry = .valid e →
        payload.length ≠ (if e.kind = .shoes then e.count else 8) →
        ((s.isu.board address.toNat).state = .live → exec (.scanFrame address payload) s =
          .next { s with
            isu := s.isu.withBoard address.toNat
              { s.isu.board address.toNat with silence := some 0 },
            fiu := hunting, cmu := frameError }.arbitrate) ∧
        ((s.isu.board address.toNat).state ≠ .live → exec (.scanFrame address payload) s =
          .next { s with fiu := hunting, cmu := frameError }.arbitrate)

/-- The FIU takes the inbound line a byte at a time. While it is hunting, a frame mark starts a frame and
every other byte is discarded without a cause; after the mark it takes bytes until they end a frame, which is
handed on as the command or event it is with the FIU hunting again; a byte that comes after the gap waits for
the gap's event. So a frame that comes on the line behind any noise is carried out as the row that it is, one
byte a step (R166). That bytes are taken in the steps in which no command waits is the model's choice
(assumption 19). -/
def Obligations.LineBytesMakeFrames : Prop :=
  (∀ (s : State) (b : Byte) (rest : List Byte), s.running → s.pending = [] → s.inbound = b :: rest →
    let taken (rx : Rx) : State := { s with inbound := rest, fiu := { s.fiu with rx := rx } }
    (s.fiu.rx = .hunting → b ≠ 0xA5#8 → step s = .next (taken .hunting)) ∧
    (s.fiu.rx = .hunting → b = 0xA5#8 → step s = .next (taken (.partway [] 0))) ∧
    ∀ bytes quiet, s.fiu.rx = .partway bytes quiet →
      (4 ≤ quiet → step s = exec (.byteGap bytes) s) ∧
      (quiet < 4 → receive (bytes ++ [b]) = .unfinished →
        step s = .next (taken (.partway (bytes ++ [b]) 0))) ∧
      ∀ i, quiet < 4 → decodeFrame (bytes ++ [b]) = some i → step s = exec i (taken .hunting)) ∧
  ∀ (i : Instr) (noise bytes rest : List Byte) (s : State), i.wellFormed = true →
    encodeFrame i = some bytes → (∀ b ∈ noise, b ≠ 0xA5#8) → s.running → s.pending = [] →
    s.fiu.rx = .hunting → s.inbound = noise ++ 0xA5#8 :: (bytes ++ rest) →
    Sys2Proof.core.run (noise.length + 1 + bytes.length) s = exec i { s with inbound := rest }

/-- An accepted frame of a LIVE board of contacts restarts its silence timer and debounces each covered
contact (R6, R8, R19); no other contact, board or shoe changes; a stud or piston whose accepted state
changes is taken by the PTU's or the RGU's image (R12, R87, R124). A tab whose accepted state changes ends
its stop's settling, with a pending retry, where it agrees with the commanded value, and is ignored where it
is contrary; with no settling the organist has moved it: the stop takes its value, with a stop event, and
the stop's pending drive is withdrawn, and an entry that is left with none is out of the wait sets; no other
stop is touched (R133, R135, R167). A key whose contact changes takes the touch
state of its two rows (R9). The events of all this are taken in ascending contact order (R10 to R12): a key
that arrives at touch of a stop that is ON begins the pair's contribution, for a PIZZICATO stop with a window
at the tail of the list, whose oldest entry ends first where 64 stand, and one that leaves touch ends it (R43,
R50 to R52); a stud begins and ends the call of its channel (R87); a tab turns its stop (R44; the windows of a
PIZZICATO stop turned OFF end in list order, assumption 7). What a begin and an end do, in every state: a SINGLE begin is a strike request, the first REITERATE one beats at once, a trap
begin or stud DOWN is a trigger by the channel's mode, and an end triggers nothing (R46, R48, R67, R72, R75,
R86, R88, R89, R91 to R93, R107). -/
def Obligations.LiveFrameDebounces : Prop :=
  (∀ (s : State) (tg : Option Target), s.beginTaken (s.begun tg) tg ∧ s.endTaken (s.ended tg) tg) ∧
  (∀ t, touchSteps t t = []) ∧
  touchSteps .up .first = [(.up, .first)] ∧ touchSteps .first .up = [(.first, .up)] ∧
  touchSteps .first .second = [(.first, .second)] ∧
  touchSteps .second .first = [(.second, .first)] ∧
  touchSteps .up .second = [(.up, .first), (.first, .second)] ∧
  touchSteps .second .up = [(.second, .first), (.first, .up)] ∧
  ∀ (s : State) (b : Nat) (payload : List Byte) (e : BoardEntry), s.running → s.cmu.fill = none →
    s.cmu.started = true → b < 32 → (s.isu.board b).entry = .valid e → e.kind ≠ .shoes →
    (s.isu.board b).state = .live → payload.length = 8 →
    let changes (c : Nat) : Prop := c < e.count ∧ c < 64 ∧
      ((s.isu.board b).contact c).suppressed = false ∧
      bitAt payload c ≠ ((s.isu.board b).contact c).accepted ∧
      e.debounce ≤ ((s.isu.board b).contact c).candidate + 1
    ∃ s' : State, exec (.scanFrame (toByte b) payload) s = .next s'.arbitrate ∧
      s'.tick = s.tick ∧ s'.settings = s.settings ∧ s'.stopped = s.stopped ∧ s'.free = s.free ∧
      s'.pending = s.pending ∧ s'.inbound = s.inbound ∧ s'.isu.shoes = s.isu.shoes ∧
      (∀ j < 32, j ≠ b → s'.isu.board j = s.isu.board j) ∧
      s'.isu.board b = { s.isu.board b with
        silence := some 0, contacts := (s'.isu.board b).contacts } ∧
      (∀ c < 64, e.count ≤ c → (s'.isu.board b).contact c = (s.isu.board b).contact c) ∧
      (∀ c < 64, c < e.count →
        let x := (s.isu.board b).contact c
        let y := (s'.isu.board b).contact c
        (x.suppressed = true → y = if bitAt payload c then x else ⟨x.accepted, 0, false⟩) ∧
        (x.suppressed = false → bitAt payload c = x.accepted → y = ⟨x.accepted, 0, false⟩) ∧
        (x.suppressed = false → bitAt payload c ≠ x.accepted → x.candidate + 1 < e.debounce →
          y = ⟨x.accepted, x.candidate + 1, false⟩) ∧
        (changes c → y = ⟨bitAt payload c, 0, false⟩ ∧
          (e.kind = .studs → e.first + c < 32 →
            nth s'.ptu.heldStuds (e.first + c) false = bitAt payload c) ∧
          (e.kind = .pistons → e.first + c < 64 →
            nth s'.rgu.pressed (e.first + c) false = bitAt payload c))) ∧
      (e.kind ≠ .keys → s'.isu.touch = s.isu.touch ∧ s'.une.heldKeys = s.une.heldKeys) ∧
      (e.kind = .studs → unchangedBut [.isu, .ptu, .omu, .fiu] s s') ∧
      (e.kind = .keys → s'.rgu = s.rgu ∧ s'.msu = s.msu ∧ s'.cmu = s.cmu) ∧
      (e.kind = .keys ∨ e.kind = .studs → s'.fiu = { s.fiu with rx := .hunting }) ∧
      (e.kind = .keys → e.division < 5 → e.first + e.count ≤ 61 →
        s' = s.contactsTaken b e s' ∧ s.keysFollow s' e changes) ∧
      (e.kind = .studs → e.first + e.count ≤ 32 → s' = s.contactsTaken b e s') ∧
      (e.kind = .tabs → e.first + e.count ≤ 256 → s' = s.contactsTaken b e s') ∧
      (e.kind = .tabs → unchangedBut [.isu, .une, .ptu, .efu, .omu, .rgu, .fiu] s s' ∧
        (s.tabLaw → s'.fiu = { s.fiu with rx := .hunting, replies := s.unwaited s' }) ∧
        s'.rgu = { s.rgu with
          stopState := s'.rgu.stopState, tabQueue := s'.rgu.tabQueue, settle := s'.rgu.settle } ∧
        (s.une.stopOn = s.rgu.stopState → s'.une.stopOn = s'.rgu.stopState) ∧
        (∀ st < 256, (∀ c, changes c → st ≠ e.first + c) → s'.rgu.isOn st = s.rgu.isOn st ∧
          s'.rgu.settle.filter (fun y => y.stop = st) = s.rgu.settle.filter (fun y => y.stop = st) ∧
          ∀ q ∈ s.rgu.tabQueue, ∀ d ∈ q.drives, d.stop = st →
            ∃ q' ∈ s'.rgu.tabQueue, q'.board = q.board ∧ d ∈ q'.drives) ∧
        ∀ c, changes c → e.first + c < 256 →
          let st := e.first + c
          (∀ y, s.rgu.settle.find? (fun y => y.stop == st) = some y →
            s'.rgu.isOn st = s.rgu.isOn st ∧
            (y.value = bitAt payload c → (∀ y' ∈ s'.rgu.settle, y'.stop ≠ st) ∧
              ∀ q ∈ s'.rgu.tabQueue, ∀ d ∈ q.drives, d.stop = st → d.attempt ≠ 2) ∧
            (y.value ≠ bitAt payload c → s'.rgu.settle.filter (fun y => y.stop = st) =
              s.rgu.settle.filter (fun y => y.stop = st))) ∧
          ((∀ y ∈ s.rgu.settle, y.stop ≠ st) → s'.rgu.isOn st = bitAt payload c ∧
            (s.rgu.isOn st ≠ bitAt payload c →
              ∀ q ∈ s'.rgu.tabQueue, ∀ d ∈ q.drives, d.stop ≠ st)))

/-- The first accepted frame of a board that is AWAITED or LOST makes it LIVE and starts its silence
timer, a LOST one with BOARD BACK (R5, R6). Its contacts start all-up and the frame is the first of a run
(R15); the shoes of a SHOES board take their positions (R13; ShoeFrameFollowed has the rest). The tabs of a
TABS board are taken at once (R16). On first contact they become the stop states, and the covered stops lose
their pending drives, with their waits, and their Settle List entries; a recovery leaves the stop states and the
Settle List as they stand and queues a drive of the stop state, attempt 1, for each covered stop whose tab
disagrees, but for the FAULTY ones (R138, R167). No other stop's drives change. The events of all this are taken
in ascending contact order (R10 to R12): a stop event for each stop that a first contact changes, and no other
(R44; the windows of a PIZZICATO stop turned OFF end in list order, assumption 7), the key-touch events of each
key that is down at once, with its touch state by its two rows (R9, R43), a stud DOWN (R87), a PRESS (R124). -/
def Obligations.FirstFrameEntersLive : Prop :=
  ∀ (s : State) (b : Nat) (payload : List Byte) (e : BoardEntry), s.running → s.cmu.fill = none →
    s.cmu.started = true → b < 32 → (s.isu.board b).entry = .valid e →
    payload.length = (if e.kind = .shoes then e.count else 8) →
    (s.isu.board b).state = .awaited ∨ (s.isu.board b).state = .lost →
    let entered : State := { s.frameEnded with cmu := { s.cmu with
      causes := if (s.isu.board b).state = .lost then s.cmu.causes ||| 0x02#8 else s.cmu.causes
      lastBack := if (s.isu.board b).state = .lost then some b else s.cmu.lastBack } }
    let down (s' : State) : List Nat :=
      (List.range e.count).filter fun c => ((s'.isu.board b).contact c).accepted
    ∃ s' : State, exec (.scanFrame (toByte b) payload) s = .next s'.arbitrate ∧
      (s'.isu.board b).state = .live ∧ (s'.isu.board b).silence = some 0 ∧
      (s'.isu.board b).entry = .valid e ∧
      (∀ j < 32, j ≠ b → s'.isu.board j = s.isu.board j) ∧
      (e.kind ≠ .keys → s'.isu.touch = s.isu.touch) ∧
      (e.kind ≠ .shoes → s'.isu.shoes = s.isu.shoes) ∧
      ((s.isu.board b).state = .lost → s'.cmu.lastBack = some b ∧
        s'.cmu.causes.getLsbD 1 = true) ∧
      (e.kind = .tabs ∨ e.kind = .keys ∨ e.kind = .studs → s'.cmu = entered.cmu) ∧
      (e.kind = .keys → s'.fiu = entered.fiu ∧ s'.rgu = s.rgu ∧
        (e.division < 5 → e.first + e.count ≤ 61 → s' = s.contactsTaken b e s' ∧
          s.keysFollow s' e fun c => c < e.count ∧ ((s'.isu.board b).contact c).accepted = true)) ∧
      (e.kind = .studs → e.first + e.count ≤ 32 → s' = (down s').foldl
        (fun t c => t.studTaken (e.first + c) true) { entered with isu := s'.isu }) ∧
      (e.kind = .pistons → e.first + e.count ≤ 64 → s' = (down s').foldl
        (fun t c => t.pistonEvent (e.first + c) true) { entered with isu := s'.isu }) ∧
      (∀ c < 64, c < e.count →
        let x := (s.isu.board b).contact c
        let y := (s'.isu.board b).contact c
        (e.kind = .tabs → y = ⟨bitAt payload c, 0, x.suppressed⟩) ∧
        (e.kind = .keys ∨ e.kind = .studs ∨ e.kind = .pistons →
          y.suppressed = (x.suppressed && bitAt payload c) ∧
          y.accepted = (!x.suppressed && bitAt payload c && decide (e.debounce ≤ 1)) ∧
          y.candidate = if !x.suppressed && bitAt payload c && decide (1 < e.debounce)
            then 1 else 0)) ∧
      (e.kind = .shoes → e.first + e.count ≤ 4 →
        (s'.isu.board b).contacts = (s.isu.board b).contacts ∧
        ∀ i < 4, s'.isu.shoe i =
          if e.first ≤ i ∧ i < e.first + e.count then byteAt payload (i - e.first)
          else s.isu.shoe i) ∧
      (e.kind = .tabs → e.first + e.count ≤ 256 →
        let covered (st : Nat) : Prop := e.first ≤ st ∧ st < e.first + e.count
        s' = s.contactsTaken b e s' ∧
        (s.tabLaw → s'.fiu = { s.fiu with rx := .hunting, replies := s.unwaited s' }) ∧
        (∀ st < 256, s'.rgu.isOn st =
          if (s.isu.board b).state = .awaited ∧ e.first ≤ st ∧ st < e.first + e.count
          then bitAt payload (st - e.first) else s.rgu.isOn st) ∧
        ((s.isu.board b).state = .awaited →
          s'.rgu = { s.rgu with
            stopState := s'.rgu.stopState, tabQueue := s'.rgu.tabQueue,
            settle := s.rgu.settle.filter fun y => !inSpan e.first e.count y.stop } ∧
          (∀ st, covered st → s'.rgu.drivesOf st = []) ∧
          ∀ st, ¬ covered st → s'.rgu.drivesOf st = s.rgu.drivesOf st) ∧
        ((s.isu.board b).state = .lost →
          s'.rgu = { s.rgu with tabQueue := s'.rgu.tabQueue } ∧
          (s.coverageLaw → ∀ st, covered st → bitAt payload (st - e.first) ≠ s.rgu.isOn st →
            s.rgu.isFaulty st = false →
            ∃ q ∈ s'.rgu.tabQueue, q.board = b ∧ ⟨st, s.rgu.isOn st, 1⟩ ∈ q.drives) ∧
          ∀ st, (covered st → bitAt payload (st - e.first) = s.rgu.isOn st ∨
            s.rgu.isFaulty st = true) → s'.rgu.drivesOf st = s.rgu.drivesOf st))

/-- An accepted frame of a SHOES board, LIVE or entering LIVE, starts its silence timer afresh, with BOARD BACK
where the board was LOST, and each shoe whose position differs from the last one emitted takes it, in the ISU
and in the EFU (R5, R6, R13, R15, R112). Each valid expression
channel on such a shoe forms its level, its accepted level and its target stage from the new position, and
the current stage follows at once with slew 0, with the stages' requests, or by the step timer; no other
channel is touched (R112 to R117). -/
def Obligations.ShoeFrameFollowed : Prop :=
  ∀ (s : State) (b : Nat) (payload : List Byte) (e : BoardEntry), s.running → s.cmu.fill = none →
    s.cmu.started = true → b < 32 → (s.isu.board b).entry = .valid e → e.kind = .shoes →
    e.first + e.count ≤ 4 → (s.isu.board b).state ≠ .unused → payload.length = e.count →
    ∃ s' : State, exec (.scanFrame (toByte b) payload) s = .next s'.arbitrate ∧
      unchangedBut [.isu, .efu, .omu, .fiu, .cmu] s s' ∧
      s'.cmu = (if (s.isu.board b).state = .lost then
        { s.cmu with causes := s.cmu.causes ||| 0x02#8, lastBack := some b } else s.cmu) ∧
      s'.isu = { s.isu.withBoard b { s.isu.board b with state := .live, silence := some 0 } with
        shoes := s'.isu.shoes } ∧
      s'.efu.trems = s.efu.trems ∧
      (∀ i < 4, s'.isu.shoe i =
        if e.first ≤ i ∧ i < e.first + e.count then byteAt payload (i - e.first)
        else s.isu.shoe i) ∧
      (∀ i < 4, s'.efu.shoe i =
        if s'.isu.shoe i = s.isu.shoe i then s.efu.shoe i else s'.isu.shoe i) ∧
      (∀ x < 2, (s.efu.expr x).entry.entry? = none → s'.efu.expr x = s.efu.expr x) ∧
      (∀ x < 2, ∀ ex ∈ (s.efu.expr x).entry.entry?,
        let c := s.efu.expr x
        let p := s'.isu.shoe ex.shoe
        let level := levelOf ex.curve p
        let accepted := acceptLevel ex.hysteresis level c.accepted
        let target := targetOf ex.stages accepted
        s'.efu.expr x = if p = s.isu.shoe ex.shoe then c else { c with
          level := level, accepted := accepted, target := target,
          current := if ex.slew = 0 then target else c.current,
          timer := if ex.slew ≠ 0 ∧ target ≠ c.current ∧ c.timer = none then some ex.slew
            else c.timer }) ∧
      s'.omu = s.omu.takeAll ((List.range 4).flatMap fun i =>
        if s'.isu.shoe i = s.isu.shoe i then []
        else [0, 1].flatMap fun x =>
          match (s.efu.expr x).entry with
          | .invalid _ => []
          | .valid ex =>
            if ex.shoe = i ∧ ex.slew = 0 then
              stageRequests ex.firstOut (s.efu.expr x).current (s'.efu.expr x).current
            else [])

/-- The end of a LIVE board's silence timer makes it LOST with BOARD LOST raised, and forces up the
accepted contacts of a KEYS, STUDS or PISTONS board, with the key-touch events, the stud UP or the RELEASE of
each in ascending contact order; TABS and SHOES hold theirs (R4 to R6, R14). What these events do is all that
changes (R9 to R12, R43, R51, R87, R124). A timer that has not reached its timeout does not expire. -/
def Obligations.SilenceExpiryLosesBoard : Prop :=
  ∀ (s : State) (b : Nat) (e : BoardEntry), s.running → b < 32 →
    (s.isu.board b).entry = .valid e →
    ((s.isu.board b).state = .live → (s.isu.board b).silence = some e.timeout →
      ∃ s' : State, exec (.silenceTimerExpiry b) s = .next s'.arbitrate ∧
        (s'.isu.board b).state = .lost ∧ (s'.isu.board b).silence = none ∧
        (s'.isu.board b).entry = .valid e ∧
        (∀ j < 32, j ≠ b → s'.isu.board j = s.isu.board j) ∧ s'.isu.shoes = s.isu.shoes ∧
        s'.cmu = { s.cmu with causes := s.cmu.causes ||| 0x01#8, lastLost := some b } ∧
        s'.fiu = s.fiu ∧ s.forcedUp s' b e ∧
        (e.kind = .tabs ∨ e.kind = .shoes → unchangedBut [.isu, .cmu] s s' ∧
          (s'.isu.board b).contacts = (s.isu.board b).contacts) ∧
        (e.kind = .keys ∨ e.kind = .studs ∨ e.kind = .pistons → ∀ c < 64,
          (s'.isu.board b).contact c =
            ⟨if c < e.count then false else ((s.isu.board b).contact c).accepted, 0,
              ((s.isu.board b).contact c).suppressed⟩)) ∧
    ((s.isu.board b).state ≠ .live ∨ (s.isu.board b).silence ≠ some e.timeout →
      exec (.silenceTimerExpiry b) s = .next s.arbitrate)

/-! ## Pitch arithmetic and searches -/

/-- A key outside the stop's span maps to nothing; a key inside it sounds note 36 + k + offset, which lies
in 12..132, and a raw index, in −115..132, that lies inside the compass is the pipe or note (R32, R33).
Folding down takes an index above the compass down by the fewest octaves that bring it below the count, and
maps to nothing if that passes below 0; folding up does the like at the bottom. A folded-down index lies in
the top octave, a folded-up one in the bottom octave, and with 12 notes or more each always finds a pipe
(R34, R35). -/
def Obligations.PitchAndFoldArithmetic : Prop :=
  (∀ (e : StopEntry) (lowest count k : Nat),
    (k < e.lowKey ∨ e.highKey < k → pitchIndex e lowest count k = none) ∧
    (e.lowKey ≤ k → k ≤ e.highKey → ∀ i : Int, i = 36 + k + e.offset - lowest →
      (0 ≤ i → i < count → pitchIndex e lowest count k = some i.toNat) ∧
      (count ≤ i → 0 ≤ i → pitchIndex e lowest count k = foldDown e.fold count i) ∧
      (i < 0 → pitchIndex e lowest count k = foldUp e.fold count i)) ∧
    (k ≤ 60 → -24 ≤ e.offset → e.offset ≤ 36 → ∀ n : Int, n = 36 + k + e.offset →
      12 ≤ n ∧ n ≤ 132 ∧ (lowest ≤ 127 → -115 ≤ n - lowest ∧ n - lowest ≤ 132))) ∧
  ∀ (fold : Fold) (count : Nat) (i : Int), 0 < count →
    (count ≤ i →
      ((fold = .none ∨ fold = .up) → foldDown fold count i = none) ∧
      ((fold = .down ∨ fold = .both) →
        (∀ j : Nat, foldDown fold count i = some j ↔
          ∃ r : Nat, 1 ≤ r ∧ (j : Int) = i - 12 * r ∧ j < count ∧ (count : Int) ≤ i - 12 * (r - 1)) ∧
        (∀ j : Nat, foldDown fold count i = some j →
          (j : Int) = i - 12 * ((i - count) / 12 + 1) ∧ count ≤ j + 12) ∧
        (12 ≤ count → (foldDown fold count i).isSome = true))) ∧
    (i < 0 →
      ((fold = .none ∨ fold = .down) → foldUp fold count i = none) ∧
      ((fold = .up ∨ fold = .both) →
        (∀ j : Nat, foldUp fold count i = some j ↔
          ∃ r : Nat, 1 ≤ r ∧ (j : Int) = i + 12 * r ∧ j < count ∧ i + 12 * (r - 1) < 0) ∧
        (∀ j : Nat, foldUp fold count i = some j →
          (j : Int) = i + 12 * ((-i - 1) / 12 + 1) ∧ j < 12) ∧
        (12 ≤ count → (foldUp fold count i).isSome = true)))

/-- SEARCH REFERENCES answers DONE with the lowest stop, at or above the start, whose valid entry has the
kind and the target number, or with NONE; it changes nothing. A kind byte that names no kind and a target
outside its kind's range are refused with RANGE (R39). What the stop byte of NONE holds is free
(assumption 3). -/
def Obligations.SearchFindsLowestStop : Prop :=
  ∀ (s : State) (p : Byte) (ps : List Byte), s.ready → ps.length = 3 →
    let target := byteAt ps 1
    let start := byteAt ps 2
    let refers (kind : StopKind) (st : Nat) : Prop :=
      ∃ e, s.une.stop st = .valid e ∧ e.kind = kind ∧ e.target = target
    (3 < byteAt ps 0 → exec (.searchReferences p ps) s =
      .next (s.frameEnded.replied p 0x04 false .range [])) ∧
    ∀ kind, byteAt ps 0 = kind.code →
      let limit := match kind with
        | .rank => 32 | .percussion => 8 | .trap => 32 | .tremulant => 12
      (limit ≤ target → exec (.searchReferences p ps) s =
        .next (s.frameEnded.replied p 0x04 false .range [])) ∧
      (target < limit →
        (∀ st, start ≤ st → st < 256 → refers kind st →
          (∀ j, start ≤ j → j < st → ¬ refers kind j) →
          exec (.searchReferences p ps) s =
            .next (s.frameEnded.replied p 0x04 false .done [1, toByte st])) ∧
        ((∀ st, start ≤ st → st < 256 → ¬ refers kind st) →
          exec (.searchReferences p ps) s = .next
            ((s.frameEnded.withFree (s.free + 1)).replied p 0x04 false .done
              [0, Config.unstatedByte s.free 0])))

/-! ## Demand: direct flags, mute, release, windows -/

/-- SOUND PIPE sets a pipe's direct flag and adds one to its demand count, SILENCE PIPE clears it and
takes one, with the pipe's request when the count passes through 0 while its chamber is unmuted; a flag
that stands so already changes nothing; a pipe that does not exist is refused with RANGE (R54). SILENCE
DIRECT clears every direct flag of the valid ranks and takes one from each count, with the requests-off in
rank and pipe order, and is answered DONE (R55). -/
def Obligations.DirectFlagCommands : Prop :=
  (∀ (s : State) (p : Byte) (ps : List Byte), s.ready → ps.length = 2 →
    let r := byteAt ps 0
    let i := byteAt ps 1
    ((32 ≤ r ∨ (s.une.rank r).entry? = none ∨ (∃ e, s.une.rank r = .valid e ∧ e.count ≤ i)) →
      exec (.soundPipe p ps) s = .next (s.frameEnded.replied p 0x30 false .range []) ∧
      exec (.silencePipe p ps) s = .next (s.frameEnded.replied p 0x31 false .range [])) ∧
    ∀ e, r < 32 → s.une.rank r = .valid e → i < e.count →
      (s.une.directFlag r i = false → exec (.soundPipe p ps) s = .next
        (((s.frameEnded.withUne
            ((s.une.withDirect r i true).withCount r i (s.une.count r i + 1))).withOmu
            (if s.une.count r i = 0 ∧ s.une.muted e.chamber = false
              then s.omu.take (.on (e.firstOut + i)) else s.omu)).replied p 0x30 false .done [])) ∧
      (s.une.directFlag r i = true → exec (.soundPipe p ps) s =
        .next (s.frameEnded.replied p 0x30 false .done [])) ∧
      (s.une.directFlag r i = true → exec (.silencePipe p ps) s = .next
        (((s.frameEnded.withUne
            ((s.une.withDirect r i false).withCount r i (s.une.count r i - 1))).withOmu
            (if s.une.count r i = 1 ∧ s.une.muted e.chamber = false
              then s.omu.take (.off (e.firstOut + i)) else s.omu)).replied p 0x31 false .done [])) ∧
      (s.une.directFlag r i = false → exec (.silencePipe p ps) s =
        .next (s.frameEnded.replied p 0x31 false .done []))) ∧
  ∀ (s : State) (p : Byte), s.ready →
    ∃ s' : State, exec (.silenceDirect p []) s = .next (s'.replied p 0x32 false .done []) ∧
      unchangedBut [.une, .omu] s.frameEnded s' ∧
      s'.une = { s.une with demand := s'.une.demand, direct := s'.une.direct } ∧
      (∀ r < 32, ∀ e ∈ (s.une.rank r).entry?, ∀ i < e.count, i < 97 →
        s'.une.directFlag r i = false ∧
        s'.une.count r i = s.une.count r i - if s.une.directFlag r i then 1 else 0) ∧
      (∀ r < 32, ∀ i < 97, (∀ e ∈ (s.une.rank r).entry?, e.count ≤ i) →
        s'.une.directFlag r i = s.une.directFlag r i ∧ s'.une.count r i = s.une.count r i) ∧
      s'.omu = s.omu.takeAll ((List.range 32).flatMap fun r =>
        match s.une.rank r with
        | .invalid _ => []
        | .valid e =>
          ((List.range e.count).filter fun i =>
            s.une.directFlag r i && s.une.count r i == 1 && !s.une.muted e.chamber).map
              fun i => Req.off (e.firstOut + i))

/-- MUTE and UNMUTE of a chamber whose flag stands otherwise change the flag and the PTU's copy, leave
every demand count, and send the requests of the wanted pipes before anything else. On MUTE the chamber's
percussion units are flushed: no note is STRIKING or QUEUED and none is pending; its trap channels are
neither STRIKING nor pending, and a COUNTED run ends. On UNMUTE no percussion note changes. A flag that
stands so already changes nothing, and another chamber number is refused with RANGE. Units and channels of
the other chamber, and invalid ones, are left alone (R56, R80, R81, R98). The requests that the notice makes
of the PTU come after the pipes'; their order among themselves is in part the model's choice (assumptions 41
and 42). -/
def Obligations.MuteChangesChamber : Prop :=
  ∀ (s : State) (p : Byte) (ps : List Byte), s.ready → ps.length = 1 →
    (1 < byteAt ps 0 →
      exec (.mute p ps) s = .next (s.frameEnded.replied p 0x33 false .range []) ∧
      exec (.unmute p ps) s = .next (s.frameEnded.replied p 0x34 false .range [])) ∧
    ∀ ch, byteAt ps 0 = chamberCode ch →
      (s.une.muted ch = true → exec (.mute p ps) s =
        .next (s.frameEnded.replied p 0x33 false .done [])) ∧
      (s.une.muted ch = false → exec (.unmute p ps) s =
        .next (s.frameEnded.replied p 0x34 false .done [])) ∧
      (s.une.muted ch = false →
        ∃ s' : State, exec (.mute p ps) s = .next (s'.replied p 0x33 false .done []) ∧
          unchangedBut [.une, .ptu, .omu] s.frameEnded s' ∧
          s'.une = s.une.withMute ch true ∧ s'.ptu.muted ch = true ∧
          (∀ ch' ≠ ch, s'.ptu.muted ch' = s.ptu.muted ch') ∧
          s'.ptu.heldStuds = s.ptu.heldStuds ∧ s'.ptu.studs = s.ptu.studs ∧
          s'.omu = (s.omu.takeAll ((s.une.wantedOutputs ch).map Req.off)).takeAll
            (s.ptu.muteNotice ch true).2 ∧
          (∀ u < 8, (∀ e ∈ (s.ptu.unit u).entry.entry?, e.chamber ≠ ch) →
            s'.ptu.unit u = s.ptu.unit u) ∧
          (∀ c < 32, (∀ e ∈ (s.ptu.trap c).entry.entry?, e.chamber ≠ ch) →
            s'.ptu.trap c = s.ptu.trap c) ∧
          (∀ u < 8, ∀ e ∈ (s.ptu.unit u).entry.entry?, e.chamber = ch → e.count ≤ 49 →
            s'.ptu.unit u = { s.ptu.unit u with
              queue := [], notes := (s'.ptu.unit u).notes, striking := (s'.ptu.unit u).striking,
              damperOn := (s'.ptu.unit u).damperOn } ∧
            ∀ i < e.count,
              let n := (s.ptu.unit u).note i
              (s'.ptu.unit u).note i = { n with
                state := match n.state with
                  | .striking => .resting | .queued => .idle | .idle => .idle
                  | .resting => .resting
                timer := if n.state = .striking then 4 * e.rest else n.timer
                pending := false }) ∧
          (∀ c < 32, ∀ e ∈ (s.ptu.trap c).entry.entry?, e.chamber = ch →
            let x := s.ptu.trap c
            s'.ptu.trap c = { x with
              state := if x.state = .striking then .resting else x.state
              timer := if x.state = .striking then 4 * e.rest else x.timer
              pending := false
              remaining := if e.mode = .counted then 0 else x.remaining
              beat := if e.mode = .counted then ⟨false, x.beat.counter, false⟩ else x.beat
              out := false })) ∧
      (s.une.muted ch = true →
        ∃ s' : State, exec (.unmute p ps) s = .next (s'.replied p 0x34 false .done []) ∧
          unchangedBut [.une, .ptu, .omu] s.frameEnded s' ∧
          s'.une = s.une.withMute ch false ∧ s'.ptu.muted ch = false ∧
          (∀ ch' ≠ ch, s'.ptu.muted ch' = s.ptu.muted ch') ∧
          s'.ptu.heldStuds = s.ptu.heldStuds ∧ s'.ptu.studs = s.ptu.studs ∧
          s'.omu = (s.omu.takeAll ((s.une.wantedOutputs ch).map Req.on)).takeAll
            (s.ptu.muteNotice ch false).2 ∧
          s'.ptu.units = s.ptu.units ∧
          (∀ c < 32, (∀ e ∈ (s.ptu.trap c).entry.entry?, e.chamber ≠ ch) →
            s'.ptu.trap c = s.ptu.trap c) ∧
          ∀ c < 32, ∀ e ∈ (s.ptu.trap c).entry.entry?, e.chamber = ch →
            s'.ptu.trap c = { s.ptu.trap c with
              out := (s.ptu.trap c).state = .striking ||
                (e.mode = .held && decide (0 < (s.ptu.trap c).demand)) })

/-- RELEASE ALL forces up and suppresses every accepted contact of the valid KEYS boards and sets their
candidate counts to 0 (R18), clears the direct flags (R55), and in the PTU empties the Strike Queues,
clears the pending flags and the cue holds and ends the COUNTED runs (R82, R99). Where the laws of touch and
demand hold before it (touchLaw, demandSound, percussionDemandLaw, trapDemandLaw), it leaves every key UP in
the held-key image, the Pizzicato List empty, every pipe count and percussion demand at 0 and each trap
channel with the demand of the studs that hold it. The tremulants and their demand, which no key holds, stand
as they do (R61). -/
def Obligations.ReleaseAllSilences : Prop :=
  ∀ (s : State) (p : Byte), s.ready →
    ∃ s' : State, exec (.releaseAll p []) s = .next (s'.replied p 0x35 false .done []) ∧
      unchangedBut [.isu, .une, .ptu, .omu] s.frameEnded s' ∧
      (∀ b < 32, ∀ e ∈ (s.isu.board b).entry.entry?,
        (e.kind ≠ .keys → s'.isu.board b = s.isu.board b) ∧
        (e.kind = .keys → s'.isu.board b =
            { s.isu.board b with contacts := (s'.isu.board b).contacts } ∧
          ∀ c < 64,
            let x := (s.isu.board b).contact c
            (s'.isu.board b).contact c =
              if c < e.count then ⟨false, 0, x.suppressed || x.accepted⟩
              else ⟨x.accepted, 0, x.suppressed⟩)) ∧
      (∀ r < 32, ∀ e ∈ (s.une.rank r).entry?, ∀ i < e.count, i < 97 →
        s'.une.directFlag r i = false) ∧
      (∀ u < 8, ∀ e ∈ (s.ptu.unit u).entry.entry?, (s'.ptu.unit u).queue = [] ∧
        ∀ i < 49, ((s'.ptu.unit u).note i).state ≠ .queued ∧
          ((s'.ptu.unit u).note i).pending = false) ∧
      (∀ c < 32, (s'.ptu.trap c).cueHold = false ∧ (s'.ptu.trap c).pending = false ∧
        ∀ e ∈ (s.ptu.trap c).entry.entry?, e.mode = .counted →
          (s'.ptu.trap c).remaining = 0 ∧ (s'.ptu.trap c).beat.running = false) ∧
      (s.touchLaw → s.demandSound →
        (∀ d < 5, ∀ k < 61, s'.isu.touchOf d k = .up ∧ s'.une.heldKey d k = .up) ∧
        s'.une.pizz = [] ∧
        (∀ r < 32, ∀ e ∈ (s.une.rank r).entry?, ∀ i < e.count, s'.une.count r i = 0) ∧
        (s.percussionDemandLaw → ∀ u < 8, ∀ e ∈ (s.ptu.unit u).entry.entry?,
          (s'.ptu.unit u).damperDemand = 0 ∧ (s'.ptu.unit u).reiterator.running = false ∧
          ∀ i < 49, ((s'.ptu.unit u).note i).reiteration = 0) ∧
        (s.trapDemandLaw → ∀ c < 32, (s'.ptu.trap c).demand = ((List.range 32).filter fun st =>
          nth s.ptu.heldStuds st false && nth s.ptu.studs st none == some c).length))

/-- PIZZICATO_EXPIRY removes the first window, in list order, whose expiry has been reached and ends its
contribution: one less for its pipe, with a request-off when the count passes 1→0 while the chamber is
unmuted (R49, R51). With no window reached nothing occurs. -/
def Obligations.PizzicatoExpiryEndsWindow : Prop :=
  ∀ s : State, s.running →
    ((∀ z ∈ s.une.pizz, z.reached = false) → exec .pizzicatoExpiry s = .next s.arbitrate) ∧
    ∀ before z after e r i rank, s.une.pizz = before ++ z :: after →
      (∀ x ∈ before, x.reached = false) → z.reached = true →
      (∀ x ∈ before ++ after, ¬ (x.stop = z.stop ∧ x.key = z.key)) →
      s.une.stop z.stop = .valid e → s.une.target s.ptu e z.key = some (.pipe r i) →
      s.une.rank r = .valid rank →
      exec .pizzicatoExpiry s = .next
        ((s.withUne (Une.withCount r i (s.une.count r i - 1)
            { s.une with pizz := before ++ after })).withOmu
          (if s.une.count r i = 1 ∧ s.une.muted rank.chamber = false
            then s.omu.take (.off (rank.firstOut + i)) else s.omu)).arbitrate

/-! ## Percussions and traps -/

/-- The ends of a note's timers. A pulse end rests the note with a full rest and a request-off, and the
head of the Strike Queue takes its place with a request-on and a full pulse (R68, R69). A rest end makes
the note IDLE, and a pending flag then makes a strike request: the note strikes, or joins the tail of the
Strike Queue with the budget full, or is dropped while the chamber is muted (R67, R70). An end that is not
due does not occur. That the damper's requests come after the note's is the model's reading (assumption
21). -/
def Obligations.NoteTimersEnd : Prop :=
  ∀ (s : State) (u i : Nat) (e : PercEntry), s.running → u < 8 → i < 49 →
    (s.ptu.unit u).entry = .valid e →
    let x := s.ptu.unit u
    let n := x.note i
    (n.state ≠ .striking ∨ n.timer ≠ 0 → exec (.pulseEnd u i) s = .next s.arbitrate) ∧
    (n.state ≠ .resting ∨ n.timer ≠ 0 → exec (.restEnd u i) s = .next s.arbitrate) ∧
    (n.state = .striking → n.timer = 0 → i ∉ x.queue →
      ∃ (s' : State) (rs : List Req), exec (.pulseEnd u i) s = .next s'.arbitrate ∧
        unchangedBut [.ptu, .omu] s s' ∧
        s'.ptu = { s.ptu with units := put s.ptu.units u (s'.ptu.unit u) } ∧
        (s'.ptu.unit u).note i = { n with state := .resting, timer := 4 * e.rest } ∧
        (x.queue = [] →
          s'.ptu.unit u = { x with
            notes := (s'.ptu.unit u).notes, striking := x.striking - 1,
            damperOn := (s'.ptu.unit u).damperOn } ∧
          (∀ j < 49, j ≠ i → (s'.ptu.unit u).note j = x.note j) ∧
          s'.omu = (s.omu.take (.off (e.firstOut + i))).takeAll rs) ∧
        (∀ h rest, x.queue = h :: rest → h < 49 →
          s'.ptu.unit u = { x with
            notes := (s'.ptu.unit u).notes, queue := rest, striking := x.striking - 1 + 1,
            damperOn := (s'.ptu.unit u).damperOn } ∧
          (s'.ptu.unit u).note h = { x.note h with state := .striking, timer := 4 * e.pulse } ∧
          (∀ j < 49, j ≠ i → j ≠ h → (s'.ptu.unit u).note j = x.note j) ∧
          s'.omu = ((s.omu.take (.off (e.firstOut + i))).take (.on (e.firstOut + h))).takeAll rs) ∧
        (∀ r ∈ rs, ∃ o ∈ e.damper, r = .on o ∨ r = .off o)) ∧
    (n.state = .resting → n.timer = 0 →
      ∃ (s' : State) (rs : List Req), exec (.restEnd u i) s = .next s'.arbitrate ∧
        unchangedBut [.ptu, .omu] s s' ∧
        s'.ptu = { s.ptu with units := put s.ptu.units u (s'.ptu.unit u) } ∧
        (∀ j < 49, j ≠ i → (s'.ptu.unit u).note j = x.note j) ∧
        s'.ptu.unit u = { x with
          notes := (s'.ptu.unit u).notes, queue := (s'.ptu.unit u).queue,
          striking := (s'.ptu.unit u).striking, damperOn := (s'.ptu.unit u).damperOn } ∧
        (∀ r ∈ rs, ∃ o ∈ e.damper, r = .on o ∨ r = .off o) ∧
        (n.pending = false ∨ s.ptu.muted e.chamber = true →
          (s'.ptu.unit u).note i = { n with state := .idle, pending := false } ∧
          (s'.ptu.unit u).queue = x.queue ∧ (s'.ptu.unit u).striking = x.striking ∧
          s'.omu = s.omu.takeAll rs) ∧
        (n.pending = true → s.ptu.muted e.chamber = false → x.striking < e.budget →
          (s'.ptu.unit u).note i =
            { n with state := .striking, timer := 4 * e.pulse, pending := false } ∧
          (s'.ptu.unit u).queue = x.queue ∧ (s'.ptu.unit u).striking = x.striking + 1 ∧
          s'.omu = (s.omu.take (.on (e.firstOut + i))).takeAll rs) ∧
        (n.pending = true → s.ptu.muted e.chamber = false → e.budget ≤ x.striking →
          (s'.ptu.unit u).note i = { n with state := .queued, pending := false } ∧
          (s'.ptu.unit u).queue = x.queue ++ [i] ∧ (s'.ptu.unit u).striking = x.striking ∧
          s'.omu = s.omu.takeAll rs))

/-- A reiterator beat that is due makes a strike request for every note with reiteration demand, in
ascending order: of those that are IDLE, as many as the budget leaves room for start striking, lowest
first, and the others join the Strike Queue; a RESTING one is marked pending; a STRIKING or QUEUED one is
left as it is. While the chamber is muted the requests are discarded. With no beat due nothing occurs
(R67, R76). -/
def Obligations.ReiteratorBeatStrikes : Prop :=
  ∀ (s : State) (u : Nat) (e : PercEntry), s.running → u < 8 →
    (s.ptu.unit u).entry = .valid e → e.count ≤ 49 →
    let x := s.ptu.unit u
    ((x.reiterator.running && x.reiterator.due) = false →
      exec (.reiteratorBeat u) s = .next s.arbitrate) ∧
    ((x.reiterator.running && x.reiterator.due) = true →
      ∃ s' : State, exec (.reiteratorBeat u) s = .next s'.arbitrate ∧
        unchangedBut [.ptu, .omu] s s' ∧
        s'.ptu = { s.ptu with units := put s.ptu.units u (s'.ptu.unit u) } ∧
        (s'.ptu.unit u).reiterator = { x.reiterator with due := false } ∧
        (s.ptu.muted e.chamber = true → s'.ptu.unit u = { x with
          reiterator := { x.reiterator with due := false },
          damperOn := (s'.ptu.unit u).damperOn }) ∧
        (s.ptu.muted e.chamber = false →
          let asked := (List.range e.count).filter fun i =>
            decide (0 < (x.note i).reiteration) && (x.note i).state = .idle
          let start := asked.take (e.budget - x.striking)
          let wait := asked.drop (e.budget - x.striking)
          (s'.ptu.unit u).queue = x.queue ++ wait ∧
          (s'.ptu.unit u).striking = x.striking + start.length ∧
          ∀ i < 49,
            (i ∈ start → (s'.ptu.unit u).note i =
              { x.note i with state := .striking, timer := 4 * e.pulse }) ∧
            (i ∈ wait → (s'.ptu.unit u).note i = { x.note i with state := .queued }) ∧
            (i < e.count → 0 < (x.note i).reiteration → (x.note i).state = .resting →
              (s'.ptu.unit u).note i = { x.note i with pending := true }) ∧
            (i ∉ asked → (x.note i).state ≠ .resting →
              (s'.ptu.unit u).note i = x.note i) ∧
            ((x.note i).reiteration = 0 → (s'.ptu.unit u).note i = x.note i)))

/-- The trap channels' own events. A pulse end rests the channel and its output follows the demand in mode
HELD or goes off (R90, R91). A rest end makes it IDLE, and a pending flag makes a blow unless the chamber
is muted. A beat that is due makes a strike request in a REITERATE roll, or in a COUNTED run with blows
left: a blow from IDLE, a pending flag from RESTING, nothing from STRIKING; a COUNTED blow takes one from
the remaining count and stops the beats at 0 (R89, R92, R93). An event that is not due does not occur. -/
def Obligations.TrapEventsTaken : Prop :=
  ∀ (s : State) (c : Nat) (e : TrapEntry), s.running → c < 32 →
    (s.ptu.trap c).entry = .valid e →
    let x := s.ptu.trap c
    let sounds : Bool := e.mode = .held && decide (0 < x.demand) && !s.ptu.muted e.chamber
    let answer (y : TrapChan) (out : Bool) : State :=
      (s.withPtu { s.ptu with traps := put s.ptu.traps c { y with out := out } }).withOmu
        (if out = x.out then s.omu
          else s.omu.take (if out then .on e.output else .off e.output))
    let blow (y : TrapChan) : TrapChan := { y with
      state := .striking, timer := 4 * e.pulse,
      remaining := if e.mode = .counted then y.remaining - 1 else y.remaining,
      beat := if e.mode = .counted ∧ y.remaining = 1
        then ⟨false, y.beat.counter, false⟩ else y.beat }
    (x.state ≠ .striking ∨ x.timer ≠ 0 → exec (.trapPulseEnd c) s = .next s.arbitrate) ∧
    (x.state = .striking → x.timer = 0 → exec (.trapPulseEnd c) s =
      .next (answer { x with state := .resting, timer := 4 * e.rest } sounds).arbitrate) ∧
    (x.state ≠ .resting ∨ x.timer ≠ 0 → exec (.trapRestEnd c) s = .next s.arbitrate) ∧
    (x.state = .resting → x.timer = 0 → x.pending = false ∨ s.ptu.muted e.chamber = true →
      exec (.trapRestEnd c) s =
        .next (answer { x with state := .idle, pending := false } sounds).arbitrate) ∧
    (x.state = .resting → x.timer = 0 → x.pending = true → s.ptu.muted e.chamber = false →
      exec (.trapRestEnd c) s = .next (answer (blow { x with pending := false }) true).arbitrate) ∧
    ((x.beat.running && x.beat.due) = false → exec (.trapBeat c) s = .next s.arbitrate) ∧
    ((x.beat.running && x.beat.due) = true →
      let y : TrapChan := { x with beat := ⟨true, x.beat.counter, false⟩ }
      let struck := s.ptu.muted e.chamber = false ∧ (e.mode = .counted → 0 < x.remaining)
      (struck → x.state = .idle →
        exec (.trapBeat c) s = .next (answer (blow y) true).arbitrate) ∧
      (struck → x.state = .resting →
        exec (.trapBeat c) s = .next (answer { y with pending := true } sounds).arbitrate) ∧
      (x.state = .striking → exec (.trapBeat c) s = .next (answer y true).arbitrate) ∧
      (¬ struck → x.state ≠ .striking →
        exec (.trapBeat c) s = .next (answer y sounds).arbitrate))

/-- CUE acts on each channel of its set and on no other, in ascending order. HOLD ON sets the cue-hold flag and
adds one to the demand of a channel whose flag was clear, HOLD OFF takes it back, and both leave an invalid
channel's engine alone. Neither triggers: HOLD ON strikes nothing in PULSE and COUNTED, has a HELD output on and
starts a REITERATE channel without demand to roll with a beat at once; HOLD OFF has a HELD output off with the
last demand and stops a REITERATE counter (R86, R91, R92). TRIGGER makes a strike request in modes PULSE, HELD
and REITERATE and starts or reloads a run in mode COUNTED, of an unmuted valid channel. Each output that changes
sends its request, in the order of the channels (R90). A set with an action byte that names no action is refused
with RANGE (R88, R89, R93, R94); that a row of the table refuses another row's action byte is the model's choice
(assumption 26), which no frame meets. -/
def Obligations.CueActsOnSet : Prop :=
  ∀ (s : State) (p : Byte) (ps : List Byte), s.ready → ps.length = 5 →
    let inSet (c : Nat) : Bool := bitAt ps c
    let requested (s' : State) : Omu := s.omu.takeAll ((List.range 32).flatMap fun c =>
      match (s.ptu.trap c).entry with
      | .invalid _ => []
      | .valid e => changedRequest (s.ptu.trap c).out (s'.ptu.trap c).out e.output)
    (byteAt ps 4 ≠ 0 → exec (.cueTrigger p ps) s =
      .next (s.frameEnded.replied p 0x20 false .range [])) ∧
    (byteAt ps 4 ≠ 1 → exec (.cueHoldOn p ps) s =
      .next (s.frameEnded.replied p 0x20 false .range [])) ∧
    (byteAt ps 4 ≠ 2 → exec (.cueHoldOff p ps) s =
      .next (s.frameEnded.replied p 0x20 false .range [])) ∧
    (byteAt ps 4 = 1 → ∃ s' : State, exec (.cueHoldOn p ps) s =
        .next (s'.replied p 0x20 false .done []) ∧
      unchangedBut [.ptu, .omu] s.frameEnded s' ∧
      s'.ptu = { s.ptu with traps := s'.ptu.traps } ∧
      s'.omu = requested s' ∧
      ∀ c < 32, let x := s.ptu.trap c
        (inSet c = false ∨ x.cueHold = true → s'.ptu.trap c = x) ∧
        (inSet c = true → x.cueHold = false →
          TrapChan.demandTaken s.ptu.muted (x.demand + 1) { x with cueHold := true } (s'.ptu.trap c) ∧
          (s'.ptu.trap c).cueHold = true ∧ (s'.ptu.trap c).demand = x.demand + 1 ∧
          (x.entry.entry? = none →
            s'.ptu.trap c = { x with cueHold := true, demand := x.demand + 1 }) ∧
          ∀ e ∈ x.entry.entry?, e.mode = .held → s.ptu.muted e.chamber = false →
            (s'.ptu.trap c).out = true)) ∧
    (byteAt ps 4 = 2 → ∃ s' : State, exec (.cueHoldOff p ps) s =
        .next (s'.replied p 0x20 false .done []) ∧
      unchangedBut [.ptu, .omu] s.frameEnded s' ∧
      s'.ptu = { s.ptu with traps := s'.ptu.traps } ∧
      s'.omu = requested s' ∧
      ∀ c < 32, let x := s.ptu.trap c
        (inSet c = false ∨ x.cueHold = false → s'.ptu.trap c = x) ∧
        (inSet c = true → x.cueHold = true →
          TrapChan.demandTaken s.ptu.muted (x.demand - 1) { x with cueHold := false } (s'.ptu.trap c) ∧
          (s'.ptu.trap c).cueHold = false ∧ (s'.ptu.trap c).demand = x.demand - 1 ∧
          (s'.ptu.trap c).state = x.state ∧
          ∀ e ∈ x.entry.entry?, e.mode = .reiterate → x.demand = 1 →
            (s'.ptu.trap c).beat.running = false)) ∧
    (byteAt ps 4 = 0 → ∃ s' : State, exec (.cueTrigger p ps) s =
        .next (s'.replied p 0x20 false .done []) ∧
      unchangedBut [.ptu, .omu] s.frameEnded s' ∧
      s'.ptu = { s.ptu with traps := s'.ptu.traps } ∧
      s'.omu = requested s' ∧
      ∀ c < 32, let x := s.ptu.trap c
        (inSet c = false ∨ x.entry.entry? = none → s'.ptu.trap c = x) ∧
        ∀ e ∈ x.entry.entry?, inSet c = true →
          (s.ptu.muted e.chamber = true → s'.ptu.trap c = x) ∧
          (s.ptu.muted e.chamber = false →
            (s'.ptu.trap c).demand = x.demand ∧ (s'.ptu.trap c).cueHold = x.cueHold ∧
            (s'.ptu.trap c).entry = x.entry ∧
            (s'.ptu.trap c).out = (s'.ptu.trap c).sounds false e ∧
            (x.state = .idle → (s'.ptu.trap c).state = .striking ∧
              (s'.ptu.trap c).timer = 4 * e.pulse ∧ (s'.ptu.trap c).out = true) ∧
            (x.state ≠ .idle → (s'.ptu.trap c).state = x.state ∧
              (s'.ptu.trap c).timer = x.timer) ∧
            (s'.ptu.trap c).pending = (x.pending || decide (x.state = .resting)) ∧
            (e.mode = .counted → (s'.ptu.trap c).remaining =
                (if x.state = .idle then e.repeats else e.repeats + 1) ∧
              (s'.ptu.trap c).beat.counter = 0 ∧
              (s'.ptu.trap c).beat.running = !(x.state = .idle && e.repeats == 0)) ∧
            (e.mode ≠ .counted → (s'.ptu.trap c).remaining = x.remaining ∧
              (s'.ptu.trap c).beat = x.beat)))

/-- SET REITERATION replaces the interval of a valid percussion unit (kind 0) or trap channel (kind 1)
and, with no beat waiting to be taken, touches neither the counter nor anything else; a number out of range,
an invalid entry or an interval below 10 is refused with RANGE (R77, R95). That a row of the table refuses
the other row's kind byte is the model's choice (assumption 26), and what becomes of a beat that has fallen
due in the same ms step is its reading (assumption 28). -/
def Obligations.IntervalsChangeLive : Prop :=
  ∀ (s : State) (p : Byte) (ps : List Byte), s.ready → ps.length = 3 →
    let n := byteAt ps 1
    let v := byteAt ps 2
    ((byteAt ps 0 ≠ 0 ∨ 8 ≤ n ∨ (s.ptu.unit n).entry.entry? = none ∨ v < 10) →
      exec (.setReiteration p ps) s = .next (s.frameEnded.replied p 0x21 false .range [])) ∧
    ((byteAt ps 0 ≠ 1 ∨ 32 ≤ n ∨ (s.ptu.trap n).entry.entry? = none ∨ v < 10) →
      exec (.setReiterationTrap p ps) s = .next (s.frameEnded.replied p 0x21 false .range [])) ∧
    (∀ e, byteAt ps 0 = 0 → n < 8 → (s.ptu.unit n).entry = .valid e → 10 ≤ v →
      ∃ s' : State, exec (.setReiteration p ps) s = .next (s'.replied p 0x21 false .done []) ∧
        unchangedBut [.ptu] s.frameEnded s' ∧
        s'.ptu = { s.ptu with units := put s.ptu.units n { s.ptu.unit n with
          entry := .valid { e with interval := v }, reiterator := (s'.ptu.unit n).reiterator } } ∧
        ((s.ptu.unit n).reiterator.due = false →
          (s'.ptu.unit n).reiterator = (s.ptu.unit n).reiterator)) ∧
    (∀ e, byteAt ps 0 = 1 → n < 32 → (s.ptu.trap n).entry = .valid e → 10 ≤ v →
      ∃ s' : State, exec (.setReiterationTrap p ps) s = .next (s'.replied p 0x21 false .done []) ∧
        unchangedBut [.ptu] s.frameEnded s' ∧
        s'.ptu = { s.ptu with traps := put s.ptu.traps n { s.ptu.trap n with
          entry := .valid { e with interval := v }, beat := (s'.ptu.trap n).beat } } ∧
        ((s.ptu.trap n).beat.due = false → (s'.ptu.trap n).beat = (s.ptu.trap n).beat))

/-! ## Tremulants and expression -/

/-- The end of a FREE generator's phase starts the other phase at 0 with its length, and the gating takes
the edge: at the start of an on phase WAITING becomes PULSING and the output of PULSING goes on, at its end
the output of PULSING goes off and ENDING becomes IDLE with its output off (R104, R108). Each valid slave of
it counts the beat, and at the last of its ratio takes an edge of its own (R105); no other tremulant
changes. A phase that is not at its length does not end. The end of an expression channel's step timer moves
the current stage one toward the target, with the stage's request, and restarts the timer with the slew
while they differ; a timer that has not ended does nothing (R116, R117). -/
def Obligations.EffectTimersEnd : Prop :=
  (∀ (s : State) (t : Nat) (e : TremEntry), s.running → t < 12 →
    (s.efu.trem t).entry = .valid e →
    let turned (e : TremEntry) (x : Trem) : Trem := { x with
      phaseOn := !x.phaseOn, counter := 0,
      length := if x.phaseOn then e.offLength else e.onLength,
      gating := if x.phaseOn = false ∧ x.gating = .waiting then .pulsing
        else if x.phaseOn = true ∧ x.gating = .ending then .idle else x.gating,
      out := if x.phaseOn = false ∧ (x.gating = .waiting ∨ x.gating = .pulsing) then true
        else if x.phaseOn = true ∧ (x.gating = .pulsing ∨ x.gating = .ending) then false
        else x.out }
    (e.source ≠ .free ∨ (s.efu.trem t).counter ≠ (s.efu.trem t).length →
      exec (.phaseEnd t) s = .next s.arbitrate) ∧
    (e.source = .free → (s.efu.trem t).counter = (s.efu.trem t).length →
      ∃ s' : State, exec (.phaseEnd t) s = .next s'.arbitrate ∧
        unchangedBut [.efu, .omu] s s' ∧ s'.efu = { s.efu with trems := s'.efu.trems } ∧
        s'.efu.trem t = turned e (s.efu.trem t) ∧
        ∀ j < 12, j ≠ t →
          ((s.efu.trem j).entry.entry? = none → s'.efu.trem j = s.efu.trem j) ∧
          ∀ e', (s.efu.trem j).entry = .valid e' →
            (∀ ratio, e'.source = .slave t ratio →
              s'.efu.trem j = if ratio ≤ (s.efu.trem j).counter + 1 then turned e' (s.efu.trem j)
                else { s.efu.trem j with counter := (s.efu.trem j).counter + 1 }) ∧
            ((∀ ratio, e'.source ≠ .slave t ratio) → s'.efu.trem j = s.efu.trem j))) ∧
  ∀ (s : State) (x : Nat) (e : ExprEntry), s.running → x < 2 →
    (s.efu.expr x).entry = .valid e →
    let c := s.efu.expr x
    let moved (n : Nat) (omu : Omu) : State :=
      let c' : Expr := { c with current := n, timer := if n = c.target then none else some e.slew }
      (s.withEfu { s.efu with exprs := put s.efu.exprs x c' }).withOmu omu
    (c.timer ≠ some 0 → exec (.stepEnd x) s = .next s.arbitrate) ∧
    (c.timer = some 0 →
      (c.current < c.target → exec (.stepEnd x) s = .next
        (moved (c.current + 1) (s.omu.take (.on (e.firstOut + c.current)))).arbitrate) ∧
      (c.target < c.current → exec (.stepEnd x) s = .next
        (moved (c.current - 1) (s.omu.take (.off (e.firstOut + (c.current - 1))))).arbitrate) ∧
      (c.current = c.target → exec (.stepEnd x) s = .next (moved c.current s.omu).arbitrate))

/-- The level of a position by each curve, the accepted level, and the target stage as the nearest whole
stage, which is 0 at level 0, all stages at level 63, and never falls as the level rises (R113, R114,
R115). -/
def Obligations.LevelAndTargetArithmetic : Prop :=
  (∀ p, levelOf .linear p = p / 4) ∧ levelOf .tapered 0 = 0 ∧
    (∀ p e, p ≤ 255 → 2 ^ e ≤ p → p < 2 ^ (e + 1) →
      p * 8 / 2 ^ e - 8 ≤ 7 ∧ levelOf .tapered p = 8 * e + (p * 8 / 2 ^ e - 8)) ∧
    (∀ curve p, p ≤ 255 → levelOf curve p ≤ 63) ∧
    (∀ h l a, (h ≤ (l - a) + (a - l) ∨ l = 0 ∨ l = 63 → acceptLevel h l a = l) ∧
      (¬ (h ≤ (l - a) + (a - l) ∨ l = 0 ∨ l = 63) → acceptLevel h l a = a)) ∧
    (∀ stages a, a ≤ 63 →
      63 * targetOf stages a ≤ a * stages + 31 ∧ a * stages ≤ 63 * targetOf stages a + 31) ∧
    (∀ stages, targetOf stages 0 = 0 ∧ targetOf stages 63 = stages) ∧
    ∀ stages a a', a ≤ a' → targetOf stages a ≤ targetOf stages a'

/-- SET TREMULANT replaces the lengths of a valid tremulant and leaves the phase in progress as it is
(R106). ASSIGN SHOE replaces a valid channel's shoe and takes a fresh reading: L and A are formed from the
shoe's last position, T from A, and C follows at once with slew 0 or by the step timer (R118). Numbers out
of range, invalid entries and lengths below 10 are refused with RANGE. -/
def Obligations.TremulantAndShoeCommands : Prop :=
  (∀ (s : State) (p : Byte) (ps : List Byte), s.ready → ps.length = 3 →
    let t := byteAt ps 0
    (12 ≤ t ∨ (s.efu.trem t).entry.entry? = none ∨ byteAt ps 1 < 10 ∨ byteAt ps 2 < 10 →
      exec (.setTremulant p ps) s = .next (s.frameEnded.replied p 0x22 false .range [])) ∧
    ∀ e, t < 12 → (s.efu.trem t).entry = .valid e → 10 ≤ byteAt ps 1 → 10 ≤ byteAt ps 2 →
      exec (.setTremulant p ps) s = .next
        ((s.frameEnded.withEfu { s.efu with trems := put s.efu.trems t { s.efu.trem t with
          entry := .valid { e with onLength := byteAt ps 1, offLength := byteAt ps 2 } } }).replied
          p 0x22 false .done [])) ∧
  ∀ (s : State) (p : Byte) (ps : List Byte), s.ready → ps.length = 2 →
    let x := byteAt ps 0
    let shoe := byteAt ps 1
    (2 ≤ x ∨ 4 ≤ shoe ∨ (s.efu.expr x).entry.entry? = none →
      exec (.assignShoe p ps) s = .next (s.frameEnded.replied p 0x23 false .range [])) ∧
    ∀ e, x < 2 → shoe < 4 → (s.efu.expr x).entry = .valid e →
      ∃ s' : State, exec (.assignShoe p ps) s = .next (s'.replied p 0x23 false .done []) ∧
        unchangedBut [.efu, .omu] s.frameEnded s' ∧
        s'.efu = { s.efu with exprs := put s.efu.exprs x (s'.efu.expr x) } ∧
        (s'.efu.expr x).entry = .valid { e with shoe := shoe } ∧
        (s'.efu.expr x).level = levelOf e.curve (s.efu.shoe shoe) ∧
        (s'.efu.expr x).accepted = (s'.efu.expr x).level ∧
        (s'.efu.expr x).target = targetOf e.stages (s'.efu.expr x).accepted ∧
        (e.slew = 0 → (s'.efu.expr x).current = (s'.efu.expr x).target ∧
          s'.omu = s.omu.takeAll
            (stageRequests e.firstOut (s.efu.expr x).current (s'.efu.expr x).target)) ∧
        (e.slew ≠ 0 → (s'.efu.expr x).current = (s.efu.expr x).current ∧ s'.omu = s.omu ∧
          (s'.efu.expr x).timer =
            if (s'.efu.expr x).target ≠ (s.efu.expr x).current ∧ (s.efu.expr x).timer = none
            then some e.slew else (s.efu.expr x).timer)

/-! ## Registration -/

/-- SET STOPS, CANCEL and POP set the stops they name and no other, with their stop events and tab drives,
and are answered DONE; the sequencer position and, but for POP's own record, the stack stand. A byte of SET
STOPS that names no value and a cancel argument that is neither a division nor ALL are refused with RANGE,
and POP of an empty stack changes nothing (R121, R122, R129, R131). The UNE takes the stop events in ascending
order (R44, R45): ON begins the stop's contribution with each key held at touch in ascending order, which is a
strike request for a SINGLE stop and a trigger for a TRAP stop each time, where a PIZZICATO stop begins nothing
and adds no window; OFF ends each contribution that was live, the windows of a PIZZICATO stop in list order
(assumption 7). What a begin does, in every state, is said here too (R46); what an end does, in
LiveFrameDebounces. -/
def Obligations.StopsSetAsNamed : Prop :=
  (∀ (s : State) (tg : Option Target), s.beginTaken (s.begun tg) tg) ∧
  ∀ (s : State) (p : Byte) (ps : List Byte), s.ready →
    (ps.length = 52 →
      ((∃ j < 52, 242 < byteAt ps j) ∨ 2 < byteAt ps 51 → exec (.setStops p ps) s =
        .next (s.frameEnded.replied p 0x14 true .range [])) ∧
      ((∀ j < 52, byteAt ps j ≤ 242) → byteAt ps 51 ≤ 2 →
        ∃ s' : State, exec (.setStops p ps) s = .next (s'.replied p 0x14 true .done []) ∧
          s.frameEnded.stopsSet (fun st =>
            if byteAt ps (st / 5) / 3 ^ (st % 5) % 3 = 1 then some true
            else if byteAt ps (st / 5) / 3 ^ (st % 5) % 3 = 2 then some false
            else none) s')) ∧
    (ps.length = 1 →
      (5 ≤ byteAt ps 0 → byteAt ps 0 ≠ 0xFF → exec (.cancel p ps) s =
        .next (s.frameEnded.replied p 0x12 true .range [])) ∧
      (byteAt ps 0 ≤ 4 ∨ byteAt ps 0 = 0xFF →
        ∃ s' : State, exec (.cancel p ps) s = .next (s'.replied p 0x12 true .done []) ∧
          s.frameEnded.stopsSet (fun st =>
            if byteAt ps 0 = 0xFF ∨ (s.une.stop st).entry?.map StopEntry.division = some (byteAt ps 0)
            then some false else none) s')) ∧
    (ps = [] →
      (s.rgu.stack = [] → exec (.pop p ps) s =
        .next (s.frameEnded.replied p 0x13 true .done [])) ∧
      ∀ top rest, s.rgu.stack = top :: rest →
        ∃ s' : State, exec (.pop p ps) s = .next (s'.replied p 0x13 true .done []) ∧
          (s.frameEnded.withRgu { s.rgu with stack := rest }).stopsSet
            (fun st => some (nth top st false)) s')

/-- RECALL of a memory of the current level reads its block. A good record sets the stops of the memory's
scope to its bits; a blank one changes no stop, and the reply says so. A general memory
becomes the sequencer position either way; a failing block raises STORE FAULT. A memory above 69 is refused
with RANGE (R125, R128). That a PIZZICATO stop set OFF ends its windows in list order is the model's reading
(assumption 7). -/
def Obligations.RecallSetsScope : Prop :=
  ∀ (s : State) (p : Byte) (ps : List Byte), s.ready → ps.length = 1 →
    let m := byteAt ps 0
    let read := s.msu.read (s.rgu.level * 70 + m)
    let noted : Rgu := { s.rgu with
      position := if m < 50 then s.rgu.position else some (m - 50) }
    (69 < m → exec (.recall p ps) s = .next (s.frameEnded.replied p 0x11 true .range [])) ∧
    (m ≤ 69 → read.1 = none → exec (.recall p ps) s = .next
      ((((s.frameEnded.withMsu read.2.1).withCmu (read.2.2.foldl Cmu.raise s.cmu)).withRgu
        noted).replied p 0x11 true .done [1])) ∧
    ∀ image, m ≤ 69 → read.1 = some image →
      ∃ s' : State, exec (.recall p ps) s = .next (s'.replied p 0x11 true .done [0]) ∧
        ((s.frameEnded.withMsu read.2.1).withRgu noted).stopsSet (fun st =>
          if 50 ≤ m ∨ (s.une.stop st).entry?.map StopEntry.division = some (m / 10)
          then some (bitAt (image.drop 4) st) else none) s'

/-- CAPTURE of a memory on the current level: LOCKED on a locked level and BUSY without room in the Write
Queue, each with CAPTURE REFUSED and its reason; else DONE, and with no job running the only change is in
the Write Queue, where a CAPTURE entry for the memory's block takes the place of the waiting one or joins the
tail, and in the engine, which takes the head if it is IDLE. The entry's image is a good record whose bits
are ON for exactly the stops in scope that are ON. A memory above 69 is refused with RANGE (R125, R127, R143). -/
def Obligations.CaptureJudged : Prop :=
  ∀ (s : State) (p : Byte) (ps : List Byte), s.ready → ps.length = 1 →
    let m := byteAt ps 0
    let block := s.rgu.level * 70 + m
    let locked := s.settings.lockMask.getLsbD s.rgu.level
    let noRoom := s.msu.drain = true ∨
      ((∀ w ∈ s.msu.waiting, w.block ≠ block) ∧ 8 ≤ s.msu.queue.length)
    (69 < m → exec (.capture p ps) s = .next (s.frameEnded.replied p 0x10 true .range [])) ∧
    (m ≤ 69 → locked = true → exec (.capture p ps) s = .next
      ((s.frameEnded.withCmu { s.cmu with
        causes := s.cmu.causes ||| 0x10#8, lastRefusal := some .locked }).replied
        p 0x10 true .locked [])) ∧
    (m ≤ 69 → locked = false → noRoom → exec (.capture p ps) s = .next
      ((s.frameEnded.withCmu { s.cmu with
        causes := s.cmu.causes ||| 0x10#8, lastRefusal := some .busy }).replied
        p 0x10 true .busy [])) ∧
    (m ≤ 69 → locked = false → ¬ noRoom →
      ∃ s' : State, exec (.capture p ps) s = .next (s'.replied p 0x10 true .done []) ∧
        (s.msu.job.outcome ≠ .running → unchangedBut [.msu] s.frameEnded s' ∧
          let idle : Bool := s.msu.engine = .idle
          s'.msu = { s.msu with
            queue := s'.msu.queue
            engine := if idle then .erasing else s.msu.engine
            retried := if idle then false else s.msu.retried
            pushback := if idle then 0 else s.msu.pushback } ∧
          ∃ w : Write, w.block = block ∧ w.origin = .capture ∧ w.image.length = 64 ∧
            (s.rgu.level ≤ 31 → judgeBlock block w.image = .good w.image) ∧
            (∀ st < 256, bitAt (w.image.drop 4) st =
              (s.rgu.isOn st && (decide (50 ≤ m) ||
                (s.une.stop st).entry?.map StopEntry.division == some (m / 10)))) ∧
            ((∀ x ∈ s.msu.waiting, x.block ≠ block) → s'.msu.queue = s.msu.queue ++ [w]) ∧
            ((∃ x ∈ s.msu.waiting, x.block = block) →
              s'.msu.queue.length = s.msu.queue.length ∧ w ∈ s'.msu.queue ∧
              (idle = false → s'.msu.queue.head? = s.msu.queue.head?) ∧
              ∀ i < s.msu.queue.length, s'.msu.queue[i]? = s.msu.queue[i]? ∨
                (s'.msu.queue[i]? = some w ∧
                  s.msu.queue[i]?.map Write.block = some block))))

/-- SELECT LEVEL sets the current level. LOCK LEVEL and UNLOCK LEVEL change the level's flag with a write
of the Settings block, are refused with BUSY and change nothing without room for it, and change nothing
where the flag stands so already. A level above 31 is refused with RANGE (R125, R126). -/
def Obligations.LevelCommands : Prop :=
  ∀ (s : State) (p : Byte) (ps : List Byte), s.ready → ps.length = 1 →
    let level := byteAt ps 0
    let block := TableId.settings.firstBlock
    let noRoom := s.msu.drain = true ∨
      ((∀ w ∈ s.msu.waiting, w.block ≠ block) ∧ 8 ≤ s.msu.queue.length)
    let changed (v : Bool) (s' : State) : Prop :=
      s'.settings = { s.settings with lockMask := s'.settings.lockMask } ∧
      (∀ l < 32, s'.settings.lockMask.getLsbD l =
        if l = level then v else s.settings.lockMask.getLsbD l) ∧
      (s.msu.job.outcome ≠ .running → unchangedBut [.settings, .msu] s.frameEnded s' ∧
        s'.msu.array = s.msu.array ∧
        ∃ w ∈ s'.msu.queue, w.block = block ∧ w.origin = .settings ∧
          judgeBlock block w.image = .good w.image ∧
          (w.image.drop 4).take 20 = s'.settings.encode)
    (31 < level →
      exec (.selectLevel p ps) s = .next (s.frameEnded.replied p 0x15 false .range []) ∧
      exec (.lockLevel p ps) s = .next (s.frameEnded.replied p 0x16 false .range []) ∧
      exec (.unlockLevel p ps) s = .next (s.frameEnded.replied p 0x17 false .range [])) ∧
    (level ≤ 31 →
      exec (.selectLevel p ps) s = .next
        ((s.frameEnded.withRgu { s.rgu with level := level }).replied p 0x15 false .done []) ∧
      (s.settings.lockMask.getLsbD level = true →
        exec (.lockLevel p ps) s = .next (s.frameEnded.replied p 0x16 false .done []) ∧
        (noRoom → exec (.unlockLevel p ps) s =
          .next (s.frameEnded.replied p 0x17 false .busy [])) ∧
        (¬ noRoom → ∃ s' : State, exec (.unlockLevel p ps) s =
          .next (s'.replied p 0x17 false .done []) ∧ changed false s')) ∧
      (s.settings.lockMask.getLsbD level = false →
        exec (.unlockLevel p ps) s = .next (s.frameEnded.replied p 0x17 false .done []) ∧
        (noRoom → exec (.lockLevel p ps) s =
          .next (s.frameEnded.replied p 0x16 false .busy [])) ∧
        (¬ noRoom → ∃ s' : State, exec (.lockLevel p ps) s =
          .next (s'.replied p 0x16 false .done []) ∧ changed true s')))

/-- The five outcomes of a settling whose expiry is reached: a newer drive pending, no LIVE board to ask,
and a tab that agrees end the matter; a tab that disagrees is driven again with attempt 2, and after that
is marked FAULTY with TAB FAULT. With nothing reached at the head nothing occurs (R136). CLEAR TAB FAULT clears a
stop's mark and, if the tab is known to stand otherwise than the stop state, drives it again with attempt 1; a
stop without the mark keeps all as it is (R132, R137). That a stop which is FAULTY has an entry at all, which is
then put back like any other with no drive queued, is the model's choice (assumption 43). -/
def Obligations.TabFaultsJudged : Prop :=
  (∀ s : State, s.running →
    ((∀ x ∈ s.rgu.settle.head?, x.reached = false) → exec .settleExpiry s = .next s.arbitrate) ∧
    ∀ x rest, s.rgu.settle = x :: rest → x.reached = true →
      let removed := s.withRgu { s.rgu with settle := rest }
      (s.rgu.hasDrive x.stop = true ∨ s.isu.liveTabBoard x.stop = none ∨
          s.isu.tabState x.stop = some x.value →
        exec .settleExpiry s = .next removed.arbitrate) ∧
      ∀ b, s.rgu.hasDrive x.stop = false → s.isu.liveTabBoard x.stop = some b →
        s.isu.tabState x.stop ≠ some x.value →
        (x.attempt = 1 → (∀ y ∈ rest, y.stop ≠ x.stop) →
          ∃ s' : State, exec .settleExpiry s = .next s'.arbitrate ∧ unchangedBut [.rgu] s s' ∧
            s'.rgu = { s.rgu with
              settle := rest ++ [⟨x.stop, x.value, 2, none, false⟩], tabQueue := s'.rgu.tabQueue } ∧
            (s.rgu.isFaulty x.stop = false →
              ∃ e ∈ s'.rgu.tabQueue, e.board = b ∧ ⟨x.stop, x.value, 2⟩ ∈ e.drives) ∧
            (s.rgu.isFaulty x.stop = true → s'.rgu.tabQueue = s.rgu.tabQueue)) ∧
        (x.attempt ≠ 1 → exec .settleExpiry s = .next
          ((removed.withRgu { s.rgu with
              settle := rest, faulty := put s.rgu.faulty x.stop true }).withCmu
            { s.cmu with causes := s.cmu.causes ||| 0x08#8,
                         lastTabFault := some x.stop }).arbitrate)) ∧
  ∀ (s : State) (p : Byte) (ps : List Byte), s.ready → ps.length = 1 →
    let st := byteAt ps 0
    (s.rgu.isFaulty st = false → exec (.clearTabFault p ps) s =
      .next (s.frameEnded.replied p 0x18 false .done [])) ∧
    (s.rgu.isFaulty st = true →
      ∃ s' : State, exec (.clearTabFault p ps) s = .next (s'.replied p 0x18 false .done []) ∧
        unchangedBut [.rgu] s.frameEnded s' ∧
        s'.rgu = { s.rgu with faulty := s'.rgu.faulty, tabQueue := s'.rgu.tabQueue } ∧
        (∀ j < 256, s'.rgu.isFaulty j = (s.rgu.isFaulty j && j != st)) ∧
        (s.isu.tabState st ≠ some (!s.rgu.isOn st) ∨ s.isu.liveTabBoard st = none →
          s'.rgu.tabQueue = s.rgu.tabQueue) ∧
        ∀ b, s.isu.tabState st = some (!s.rgu.isOn st) → s.isu.liveTabBoard st = some b →
          ∃ e ∈ s'.rgu.tabQueue, e.board = b ∧ ⟨st, s.rgu.isOn st, 1⟩ ∈ e.drives)

/-- The completion of a tab-drive frame frees the line and takes its board out of the wait sets. Each of
its drives whose value is still the stop's state enters the Settle List, in place of any entry of the stop,
to settle after the settle time; the others are queued for the present state with attempt 1 (R134, R167). That
R134 holds for a stop too which has gone FAULTY while the frame was on the line, though R135 says that a FAULTY
stop has no entry, is the model's choice (assumption 43). A tab-drive frame that a start afresh has left on the line frees the line and settles nothing (R172, by
assumption 27). -/
def Obligations.TabDriveFrameTaken : Prop :=
  ∀ s : State, s.running →
    (s.fiu.line = .idle ∨ (∃ r a, s.fiu.line = .reply r a) →
      exec .tabDriveFrameComplete s = .next s.arbitrate) ∧
    (∀ f, s.fiu.line = .stale f → exec .tabDriveFrameComplete s = .next
      (if f.kind = 0x82#8 then { s with fiu := { s.fiu with line := .idle } } else s).arbitrate) ∧
    ∀ e first, s.fiu.line = .tab e first → (e.drives.map Drive.stop).Nodup →
      ∃ s' : State, exec .tabDriveFrameComplete s = .next s'.arbitrate ∧
        unchangedBut [.rgu, .fiu] s s' ∧
        s'.fiu = { s.fiu with
          line := .idle,
          replies := s.fiu.replies.map fun r => { r with
            waits := r.waits.filter fun w => !(w.board == e.board && w.sent == true) } } ∧
        s'.rgu = { s.rgu with settle := s'.rgu.settle, tabQueue := s'.rgu.tabQueue } ∧
        (∀ d ∈ e.drives, s.rgu.isOn d.stop = d.value →
          s'.rgu.settle.filter (fun y => y.stop = d.stop) =
            [⟨d.stop, d.value, d.attempt,
              some (s.tick + BitVec.ofNat 32 (4 * s.settings.settle)), false⟩]) ∧
        (∀ d ∈ e.drives, s.rgu.isOn d.stop ≠ d.value → ∀ b,
          s.isu.liveTabBoard d.stop = some b → s.rgu.isFaulty d.stop = false →
          ∃ q ∈ s'.rgu.tabQueue, q.board = b ∧ ⟨d.stop, s.rgu.isOn d.stop, 1⟩ ∈ q.drives) ∧
        ∀ st, (∀ d ∈ e.drives, d.stop = st → s.rgu.isOn st ≠ d.value) →
          s'.rgu.settle.filter (fun y => y.stop = st) =
            s.rgu.settle.filter (fun y => y.stop = st)

/-- A frame of a LIVE PISTONS board is taken by the RGU as one piston event for each contact whose accepted
state changes, in ascending order (R11, R12, R124). A press does what the input's entry says: memory pistons
capture while SET is held and else recall; CANCEL and POP set the stops they name; PUSH, LEVEL UP and LEVEL
DOWN change the stack and the level within their bounds and nothing else; NEXT and PREVIOUS step the
sequencer, and with SET held are ignored. A release, and a press of NONE or SET, changes only the pressed
image and the SET held flag (R124, R125, R129, R130, R131). That a PIZZICATO stop set OFF ends its windows in
list order is the model's reading (assumption 7). -/
def Obligations.PistonPressActs : Prop :=
  (∀ (s : State) (b : Nat) (payload : List Byte) (e : BoardEntry), s.running → s.cmu.fill = none →
    s.cmu.started = true → b < 32 → (s.isu.board b).entry = .valid e → e.kind = .pistons →
    (s.isu.board b).state = .live → payload.length = 8 →
    let changes (c : Nat) : Bool :=
      !((s.isu.board b).contact c).suppressed &&
        bitAt payload c != ((s.isu.board b).contact c).accepted &&
        decide (e.debounce ≤ ((s.isu.board b).contact c).candidate + 1)
    ∃ isu' : Isu,
      isu' = s.isu.withBoard b { s.isu.board b with
        silence := some 0, contacts := (isu'.board b).contacts } ∧
      exec (.scanFrame (toByte b) payload) s = .next
        (((List.range e.count).filter changes).foldl
          (fun t c => t.pistonEvent (e.first + c) (bitAt payload c))
          (s.frameEnded.withIsu isu')).arbitrate) ∧
  ∀ (s : State) (i : Nat), i < 64 →
    let fn := nth s.rgu.pistons i .none
    let noted (press : Bool) : State := s.withRgu { s.rgu with
      pressed := put s.rgu.pressed i press,
      setHeld := (List.range 64).any fun j =>
        nth (put s.rgu.pressed i press) j false && nth s.rgu.pistons j .none == .set }
    let t := noted true
    let held : Bool := t.rgu.setHeld
    let after := s.pistonEvent i true
    s.pistonEvent i false = noted false ∧
    (fn = .none ∨ fn = .set → after = t) ∧
    (fn = .set → held = true) ∧
    (∀ d m, fn = .divisional d m →
      after = if held then (t.capture (d * 10 + m)).2 else (t.recall (d * 10 + m)).2) ∧
    (∀ m, fn = .general m →
      after = if held then (t.capture (50 + m)).2 else (t.recall (50 + m)).2) ∧
    (∀ d, fn = .cancel d → t.stopsSet (fun st =>
      if d = none ∨ (s.une.stop st).entry?.map StopEntry.division = d then some false
      else none) after) ∧
    (fn = .push → after = t.withRgu { t.rgu with
      stack := (s.rgu.stopState :: s.rgu.stack).take 4 }) ∧
    (fn = .pop → (s.rgu.stack = [] → after = t) ∧
      ∀ top rest, s.rgu.stack = top :: rest →
        (t.withRgu { t.rgu with stack := rest }).stopsSet (fun st => some (nth top st false))
          after) ∧
    (fn = .levelUp → after = t.withRgu { t.rgu with
      level := if s.rgu.level < 31 then s.rgu.level + 1 else s.rgu.level }) ∧
    (fn = .levelDown → after = t.withRgu { t.rgu with level := s.rgu.level - 1 }) ∧
    (fn = .next ∨ fn = .previous → held = true → after = t) ∧
    (fn = .next → held = false → after = match s.rgu.position with
      | none => (t.recall 50).2
      | some g => (t.recall (50 + if g < 19 then g + 1 else g)).2) ∧
    (fn = .previous → held = false → after = match s.rgu.position with
      | none => t
      | some g => (t.recall (50 + (g - 1))).2)

/-! ## The store -/

/-- COMMIT TABLES and COPY LEVEL are judged in the order of their rules and start their job. From an empty
queue and an idle engine the job has formed its first four blocks, which stand in the queue as BULK entries
with the first in flight (R144, R148, R149, R150). What a COMMIT forms for block n of a table, and every block of
the configuration region is one of these: the marker, the table's identifier, the index n, the check byte, from
byte 4 the block's entries as READ ENTRY returns them, and 0 in what is left; read back it is good (R141, R142,
R149, R182). That the record of a COMMIT holds 0 as its source and its destination is the model's choice
(assumption 37), and that the index of an Output Map block above 255 stands modulo 256 its reading
(assumption 11). -/
def Obligations.BulkJobsStart : Prop :=
  (∀ n < 341, ∃ t : TableId, t.firstBlock ≤ 3072 + n ∧ 3072 + n < t.firstBlock + t.blocks) ∧
  (∀ (s : State) (t : TableId) (n : Nat), s.entryLaw → n < t.blocks →
    let image := s.configBlock (t.firstBlock + n - 3072)
    let stored := min t.perBlock (t.size - n * t.perBlock)
    image.length = 64 ∧ image.take 3 = [0x5A#8, toByte t.code, toByte n] ∧
      image.getD 3 0 = (image.drop 4).foldl (· + ·) 0 ∧
      judgeBlock (t.firstBlock + n) image = .good image ∧
      (∀ j < stored, (image.drop (4 + j * t.entrySize)).take t.entrySize =
        s.entryBytes t (n * t.perBlock + j)) ∧
      ∀ k < 64, 4 + stored * t.entrySize ≤ k → image.getD k 0xFF#8 = 0) ∧
  ∀ (s : State) (p : Byte), s.ready →
    let busy := s.msu.job.outcome = .running ∨ s.msu.drain = true
    (busy → exec (.commitTables p []) s = .next (s.frameEnded.replied p 0x05 false .busy [])) ∧
    (¬ busy → ∃ s' : State, exec (.commitTables p []) s = .next (s'.replied p 0x05 false .queued []) ∧
      s'.msu.job.kind = .commit ∧ s'.msu.array = s.msu.array ∧
      (s.msu.queue = [] → s.msu.engine = .idle → unchangedBut [.msu] s.frameEnded s' ∧
        s'.msu.engine = .erasing ∧ s'.msu.job = ⟨.commit, 0, 0, 4, .running, false, false⟩ ∧
        s'.msu.queue = (List.range 4).map fun n => ⟨3072 + n, s.configBlock n, .bulk⟩)) ∧
    ∀ ps : List Byte, ps.length = 2 →
      let source := byteAt ps 0
      let dest := byteAt ps 1
      (31 < source ∨ 31 < dest → exec (.copyLevel p ps) s =
        .next (s.frameEnded.replied p 0x06 true .range [])) ∧
      (source ≤ 31 → source = dest → exec (.copyLevel p ps) s =
        .next (s.frameEnded.replied p 0x06 true .conflict [])) ∧
      (source ≤ 31 → dest ≤ 31 → source ≠ dest →
        (busy → exec (.copyLevel p ps) s =
          .next (s.frameEnded.replied p 0x06 true .busy [])) ∧
        (¬ busy → s.settings.lockMask.getLsbD dest = true → exec (.copyLevel p ps) s =
          .next (s.frameEnded.replied p 0x06 true .locked [])) ∧
        (¬ busy → s.settings.lockMask.getLsbD dest = false →
          ∃ s' : State, exec (.copyLevel p ps) s = .next (s'.replied p 0x06 true .queued []) ∧
            s'.msu.job.kind = .copy ∧ s'.msu.array = s.msu.array ∧
            (s.msu.queue = [] → s.msu.engine = .idle →
              unchangedBut [.msu, .cmu] s.frameEnded s' ∧ s'.msu.engine = .erasing ∧
              s'.msu.job = ⟨.copy, source, dest, 4, .running, false, false⟩ ∧
              s'.msu.queue = (List.range 4).map fun n =>
                ⟨dest * 70 + n,
                  match judgeBlock (source * 70 + n) (readBlock s.msu.array (source * 70 + n)) with
                  | .good image => image.set 2 (toByte dest)
                  | .blank => blankImage
                  | .failing => blankImage,
                  .bulk⟩)))

/-- An erase makes every byte of the block in flight all ones and a program clears bits to match the image
and sets none, but for the bytes that the event itself names as flawed; no other byte of the array changes.
The engine goes on to the program, or for a blank image and after the program to the verify. An end that
the engine's state does not await does not occur (R140, R144). Bytes named as flawed are the model's way to
let a verify fail (assumption 12). -/
def Obligations.EraseAndProgramBytes : Prop :=
  ∀ (s : State) (flaws : List (Nat × Byte)), s.running → s.memoryLaw →
    (s.msu.engine ≠ .erasing ∨ s.msu.queue = [] →
      exec (.eraseEnd flaws) s = .next s.arbitrate) ∧
    (s.msu.engine ≠ .programming ∨ s.msu.queue = [] →
      exec (.programEnd flaws) s = .next s.arbitrate) ∧
    ∀ w rest, s.msu.queue = w :: rest → w.block < arrayBlocks →
      (s.msu.engine = .erasing →
        ∃ s' : State, exec (.eraseEnd flaws) s = .next s'.arbitrate ∧ unchangedBut [.msu] s s' ∧
          s'.msu = { s.msu with
            array := s'.msu.array, pushback := 0,
            engine := if w.image = blankImage then .verifying else .programming } ∧
          (∀ a, a / blockBytes ≠ w.block →
            Memory.read s'.msu.array a = Memory.read s.msu.array a) ∧
          ∀ j < blockBytes, (∀ f ∈ flaws, f.1 ≠ j) → blockByte s'.msu.array w.block j = 0xFF#8) ∧
      (s.msu.engine = .programming →
        ∃ s' : State, exec (.programEnd flaws) s = .next s'.arbitrate ∧ unchangedBut [.msu] s s' ∧
          s'.msu = { s.msu with array := s'.msu.array, pushback := 0, engine := .verifying } ∧
          (∀ a, a / blockBytes ≠ w.block →
            Memory.read s'.msu.array a = Memory.read s.msu.array a) ∧
          ∀ j < blockBytes, (∀ f ∈ flaws, f.1 ≠ j) → blockByte s'.msu.array w.block j =
            blockByte s.msu.array w.block j &&& w.image.getD j 0xFF#8)

/-- A sound write of a block puts its image in the array: erase, program unless the image is blank, and
verify, after which the block reads as the image, no other block has changed, and the entry has left the
queue with the engine IDLE (R140, R144). -/
def Obligations.WriteReachesArray : Prop :=
  ∀ (s : State) (w : Write), s.running → s.memoryLaw → s.msu.engine = .erasing →
    s.msu.queue = [w] → w.block < arrayBlocks → w.image.length = blockBytes →
    s.msu.job.outcome ≠ .running →
    ∃ s1 s2 s3 : State, exec (.eraseEnd []) s = .next s1 ∧
      (if w.image = blankImage then s2 = s1 else exec (.programEnd []) s1 = .next s2) ∧
      exec .verifyEnd s2 = .next s3 ∧
      readBlock s3.msu.array w.block = w.image ∧
      (∀ a, a / blockBytes ≠ w.block →
        Memory.read s3.msu.array a = Memory.read s.msu.array a) ∧
      s3.msu.queue = [] ∧ s3.msu.engine = .idle ∧ s3.cmu = s.cmu ∧ s3.msu.job = s.msu.job

/-- The first verify that fails erases the block again with the entry still in flight; one that matches, or
fails a second time, ends the write, the second with STORE FAULT, and marks the job if the dropped entry was
BULK (R144, R145). The engine then takes the next head at once. A running job forms as many blocks as the
counts allow, which join the queue where no waiting entry holds a block that is about to be formed: a commit the
configuration blocks as they stand, a copy the destination's records of its sources, each read from the entry
that waits for it, if any, else from the array, and each failing one raising STORE FAULT; a copy to a level that
is locked by now stops forming (R146, R148, R149, R150). A job that has formed its last block, or stopped forming, ends when no BULK entry is
left, with JOB DONE: FAULTED if an entry was dropped, else STOPPED if it stopped forming, else COMPLETE
(R148). Any other moment has no verify end. -/
def Obligations.VerifyEndJudged : Prop :=
  ∀ s : State, s.running →
    (s.msu.engine ≠ .verifying ∨ s.msu.queue = [] → exec .verifyEnd s = .next s.arbitrate) ∧
    ∀ w rest, s.msu.engine = .verifying → s.msu.queue = w :: rest → w.block < arrayBlocks →
      let matched := readBlock s.msu.array w.block = w.image
      (¬ matched → s.msu.retried = false → exec .verifyEnd s = .next (s.withMsu { s.msu with
        engine := .erasing, retried := true, pushback := 0 }).arbitrate) ∧
      (matched ∨ s.msu.retried = true →
        let job : Job := { s.msu.job with
          dropped := s.msu.job.dropped || (!decide matched && w.origin == .bulk) }
        let cmu : Cmu := if matched then s.cmu else { s.cmu with
          causes := s.cmu.causes ||| 0x20#8, lastFaulted := some w.block }
        let goesOn (formed : List Write) (job : Job) (cmu : Cmu) : State :=
          (s.withMsu { s.msu with
            queue := rest ++ formed, engine := if rest ++ formed = [] then .idle else .erasing,
            retried := false, pushback := 0, job := job }).withCmu cmu
        let bulk := (rest.filter fun x => x.origin = .bulk).length
        let through (job : Job) : State :=
          if bulk = 0 then
            goesOn [] { job with outcome :=
              if job.dropped then .faulted else if job.stopForming then .stopped else .complete }
              { cmu with causes := cmu.causes ||| 0x40#8 }
          else goesOn [] job cmu
        let forming := job.stopForming = false ∧ job.next < job.total
        let room := bulk < 4 ∧ rest.length < 8
        let count := min (min (4 - bulk) (8 - rest.length)) (job.total - job.next)
        let formed (image : Nat → Write) : List Write :=
          (List.range count).map fun n => image (job.next + n)
        let later : Job := { job with next := job.next + count }
        (job.outcome ≠ .running → exec .verifyEnd s = .next (goesOn [] job cmu).arbitrate) ∧
        (job.outcome = .running →
          (¬ forming → exec .verifyEnd s = .next (through job).arbitrate) ∧
          (forming → ¬ room → exec .verifyEnd s = .next (goesOn [] job cmu).arbitrate) ∧
          (forming → room → job.kind = .commit →
            (∀ x ∈ rest, ∀ n < count, x.block ≠ 3072 + (job.next + n)) →
            exec .verifyEnd s = .next (goesOn
              (formed fun n => ⟨3072 + n, s.configBlock n, .bulk⟩) later cmu).arbitrate) ∧
          (forming → room → job.kind = .copy → s.settings.lockMask.getLsbD job.dest = true →
            exec .verifyEnd s = .next (through { job with stopForming := true }).arbitrate) ∧
          (forming → room → job.kind = .copy → s.settings.lockMask.getLsbD job.dest = false →
            job.source ≠ job.dest →
            (∀ x ∈ rest, ∀ n < count, x.block ≠ job.dest * 70 + (job.next + n)) →
            let found (n : Nat) : Judgement :=
              match rest.find? (fun x => x.block == job.source * 70 + n) with
              | some x => if x.image = blankImage then .blank else .good x.image
              | none => judgeBlock (job.source * 70 + n) (readBlock s.msu.array (job.source * 70 + n))
            exec .verifyEnd s = .next (goesOn
              (formed fun n => ⟨job.dest * 70 + n, match found n with
                | .good image => image.set 2 (toByte job.dest)
                | .blank => blankImage
                | .failing => blankImage, .bulk⟩) later
              (((List.range count).filter fun n => found (job.next + n) == .failing).foldl
                (fun c n => { c with
                  causes := c.causes ||| 0x20#8,
                  lastFaulted := some (job.source * 70 + (job.next + n)) }) cmu)).arbitrate)))

/-- A read of a block is answered by the waiting entry, else by the entry in flight, else by the array, and
puts off an operation in progress only in the last case (R146, R147). A write request replaces the waiting
entry of its block in place, else joins the tail while the queue has room, else is refused (R143). -/
def Obligations.StoreReadsAndWriteRequests : Prop :=
  ∀ (m : Msu) (block : Nat),
    (∀ w, m.waiting.find? (fun w => w.block == block) = some w →
      m.read block = (if w.image = blankImage then none else some w.image, m, [])) ∧
    (m.waiting.find? (fun w => w.block == block) = none →
      (∀ w rest, m.engine ≠ .idle → m.queue = w :: rest → w.block = block →
        m.read block = (if w.image = blankImage then none else some w.image, m, [])) ∧
      (m.engine = .idle ∨ (∀ w ∈ m.queue.head?, w.block ≠ block) →
        let m' : Msu := if m.engine = .idle then m else { m with pushback := m.pushback + 1 }
        (judgeBlock block (readBlock m.array block) = .blank → m.read block = (none, m', [])) ∧
        (judgeBlock block (readBlock m.array block) = .failing →
          m.read block = (none, m', [.storeFault block])) ∧
        ∀ image, judgeBlock block (readBlock m.array block) = .good image →
          m.read block = (some image, m', []))) ∧
    ∀ w : Write,
      ((∃ x ∈ m.waiting, x.block = w.block) → ∃ m', m.enqueue w = some m' ∧
        m' = { m with queue := m'.queue } ∧ m'.queue.length = m.queue.length ∧ w ∈ m'.waiting ∧
        m'.inFlight = m.inFlight ∧
        ∀ i < m.queue.length, m'.queue[i]? = m.queue[i]? ∨
          (m'.queue[i]? = some w ∧ m.queue[i]?.map Write.block = some w.block)) ∧
      ((∀ x ∈ m.waiting, x.block ≠ w.block) →
        (m.queue.length < 8 → m.enqueue w = some { m with queue := m.queue ++ [w] }) ∧
        (8 ≤ m.queue.length → m.enqueue w = none))

/-! ## The output map and the chamber links -/

/-- A request moves its output's count by one; a pass 0→1 or 1→0 sets the level of the output's point, if
it has one, to on XOR invert, and a change of level appends the point's board; no other count, point or link
changes (R157, R160, R161). A board that is appended keeps its place if it is in the queue, whatever is on the
line; else it joins the tail, and there an IDLE transmitter takes the head of the queue at once, with its levels
as they stand (R161, R162). -/
def Obligations.RequestsDrivePoints : Prop :=
  (∀ (l : Link) (b : Nat),
    (b ∈ l.queue → l.append b = l) ∧
    (b ∉ l.queue → l.held = true ∨ l.line ≠ none → l.append b = { l with queue := l.queue ++ [b] }) ∧
    ∀ head rest, b ∉ l.queue → l.held = false → l.line = none → l.queue ++ [b] = head :: rest →
      l.append b = { l with queue := rest, line := some ⟨head, l.levels head⟩ }) ∧
  ∀ (m : Omu) (o : Nat), o < 4096 →
    let after (on : Bool) : Omu := m.take (request on o)
    ∀ on,
      (∀ j < 4096, (after on).count j =
        if j = o then (if on then m.count o + 1 else m.count o - 1) else m.count j) ∧
      (after on).map = m.map ∧ (after on).refresh = m.refresh ∧
      ((if on then m.count o ≠ 0 else m.count o ≠ 1) ∨ (m.entry o).entry? = none →
        (after on).main = m.main ∧ (after on).solo = m.solo) ∧
      ∀ e, (if on then m.count o = 0 else m.count o = 1) → m.entry o = .valid e →
        e.board < 32 → e.point < 64 →
        (after on).levelAt e.place = (on != e.invert) ∧
        (∀ link board point, (link, board, point) ≠ e.place →
          (after on).levelAt (link, board, point) = m.levelAt (link, board, point)) ∧
        (m.levelAt e.place = (on != e.invert) → (after on).main = m.main ∧
          (after on).solo = m.solo) ∧
        (m.levelAt e.place ≠ (on != e.invert) → (after on).link e.link =
          { m.link e.link with image := ((after on).link e.link).image }.append e.board) ∧
        ∀ link, link ≠ e.link → (after on).link link = m.link link

/-- The completion of a board frame starts the frame of the next board in the queue, with its 64 levels as
they stand, or leaves the transmitter IDLE, or HELD after a restart. The expiry of the refresh timer appends
each link's present boards that are not in its queue, in ascending order, and restarts the timer with the
interval as it stands (R162, R163, R164). -/
def Obligations.LinkFramesSent : Prop :=
  (∀ (s : State) (link : Chamber), s.running →
    let l := s.omu.link link
    (l.line = none → exec (.boardFrameComplete link) s = .next s.arbitrate) ∧
    (l.line ≠ none →
      (l.held = true ∨ l.queue = [] → exec (.boardFrameComplete link) s = .next
        (s.withOmu (s.omu.withLink link { l with line := none })).arbitrate) ∧
      ∀ b rest, l.held = false → l.queue = b :: rest → exec (.boardFrameComplete link) s = .next
        (s.withOmu (s.omu.withLink link { l with
          queue := rest, line := some ⟨b, l.levels b⟩ })).arbitrate)) ∧
  ∀ s : State, s.running →
    (s.omu.refresh ≠ some 0 → exec .refreshSweep s = .next s.arbitrate) ∧
    (s.omu.refresh = some 0 →
      ∃ s' : State, exec .refreshSweep s = .next s'.arbitrate ∧ unchangedBut [.omu] s s' ∧
        s'.omu.counts = s.omu.counts ∧ s'.omu.map = s.omu.map ∧
        s'.omu.refresh = some s.settings.refresh ∧
        ∀ link,
          let present := match link with
            | .main => s.settings.mainBoards
            | .solo => s.settings.soloBoards
          let l := s.omu.link link
          let l' := s'.omu.link link
          l'.image = l.image ∧ l'.held = l.held ∧
          (l.held = true ∨ l.line ≠ none → l'.line = l.line ∧
            l'.queue = l.queue ++ (List.range 32).filter
              (fun b => present.getLsbD b && decide (b ∉ l.queue))) ∧
          (l.held = false → l.line = none → l.queue = [] →
            match (List.range 32).filter (fun b => present.getLsbD b) with
            | [] => l' = l
            | b :: rest => l'.line = some ⟨b, l.levels b⟩ ∧ l'.queue = rest))

/-! ## The return line, attention, restart, status -/

/-- A reply frame that completes leaves the queue. The arbiter, while the line is idle, sends the head reply
if its wait set is empty, with the attention flag of that moment; else the head of the Tab Drive Queue, which
leaves its queue and is marked sent in the wait sets; else nothing (R133, R167, R168, R173). That it starts
no frame at all, tab drives included, from the moment the start afresh is due is the model's choice (assumption
5): R172 says no more than that the replies which stand then are not sent, and lets tab drives go on until the
start afresh. A reply frame that a start afresh has left on the line frees the line and does nothing else. What
such a frame does, that a reply stands in the queue until its frame completes, that an entry on the line stays
in the wait sets, and when the RESTART reply counts as sent, are the model's readings (assumptions 27, 9, 38
and 31). -/
def Obligations.ArbiterChooses : Prop :=
  (∀ s : State, s.running →
    (s.fiu.line = .idle ∨ (∃ e first, s.fiu.line = .tab e first) →
      exec .replyFrameComplete s = .next s.arbitrate) ∧
    (∀ f, s.fiu.line = .stale f → exec .replyFrameComplete s = .next
      (if f.kind = 0x81#8 then { s with fiu := { s.fiu with line := .idle } } else s).arbitrate) ∧
    ∀ r attention, s.fiu.line = .reply r attention → exec .replyFrameComplete s = .next
      { s with
        fiu := { s.fiu with line := .idle, replies := s.fiu.replies.tail },
        cmu := { s.cmu with restartSent :=
          s.cmu.restartSent || (r.id == 0x43 && r.result == Result.queued) } }.arbitrate) ∧
  ∀ s : State,
    let due := s.cmu.restartPending = true ∧ s.cmu.restartSent = true ∧ s.msu.queue = [] ∧
      s.msu.job.outcome ≠ .running
    (s.fiu.line ≠ .idle ∨ due → s.arbitrate = s) ∧
    (∀ r rest, ¬ due → s.fiu.line = .idle → s.fiu.replies = r :: rest → r.waits = [] →
      s.arbitrate = { s with fiu := { s.fiu with
        line := .reply r (s.cmu.causes &&& s.cmu.enable != 0) } }) ∧
    (∀ e queue, ¬ due → s.fiu.line = .idle → (∀ r ∈ s.fiu.replies.head?, r.waits ≠ []) →
      s.rgu.tabQueue = e :: queue → s.arbitrate = { s with
        rgu := { s.rgu with tabQueue := queue },
        fiu := { s.fiu with
          line := .tab e (s.isu.firstStop e.board),
          replies := s.fiu.replies.map fun r => { r with waits := r.waits.map fun w =>
            if w.board = e.board then { w with sent := true } else w } } }) ∧
    (s.fiu.line = .idle → (∀ r ∈ s.fiu.replies.head?, r.waits ≠ []) → s.rgu.tabQueue = [] →
      s.arbitrate = s)

/-- ACKNOWLEDGE removes the named causes and FORCE CAUSE adds them, writing no detail field, and both are
answered DONE (R174). RESTART is answered QUEUED, sets the RESTART pending flag and starts the drain
(R172). -/
def Obligations.AttentionAndRestart : Prop :=
  ∀ (s : State) (p : Byte), s.ready →
    (∀ set : Byte,
      exec (.acknowledge p [set]) s = .next
        ((s.frameEnded.withCmu { s.cmu with causes := s.cmu.causes &&& ~~~set }).replied
          p 0x41 false .done []) ∧
      exec (.forceCause p [set]) s = .next
        ((s.frameEnded.withCmu { s.cmu with causes := s.cmu.causes ||| set }).replied
          p 0x42 false .done [])) ∧
    exec (.restart p []) s = .next
      (((s.frameEnded.withCmu { s.cmu with restartPending := true, restartSent := false }).withMsu
        { s.msu with drain := true }).replied p 0x43 false .queued [])

/-- READ STATUS is answered DONE with 26 bytes that tell the board states, the causes and the enable set,
the detail fields that hold something, the level, the engine and the queue, the job, the mutes and the
sequencer; it changes nothing that a rule reads (R175, R180). The byte of a detail field that is NONE, and the
bits of bytes 10 and 24 that name nothing, are free (assumption 3). -/
def Obligations.ReadStatusTells : Prop :=
  ∀ (s : State) (p : Byte), s.ready →
    ∃ data, exec (.readStatus p []) s = .next
        ((s.frameEnded.withFree (s.free + 1)).replied p 0x40 false .done data) ∧
      data.length = 26 ∧
      (∀ b < 32, byteAt data (b / 4) / 4 ^ (b % 4) % 4 = match (s.isu.board b).state with
        | .unused => 0 | .awaited => 1 | .live => 2 | .lost => 3) ∧
      data.getD 8 0 = s.cmu.causes ∧ data.getD 9 0 = s.cmu.enable ∧
      (bitAt (data.drop 10) 0 = s.cmu.lastLost.isSome ∧
        bitAt (data.drop 10) 1 = s.cmu.lastBack.isSome ∧
        bitAt (data.drop 10) 2 = s.cmu.lastTabFault.isSome ∧
        bitAt (data.drop 10) 3 = s.cmu.lastRefusal.isSome ∧
        bitAt (data.drop 10) 4 = s.cmu.lastFaulted.isSome) ∧
      (∀ n ∈ s.cmu.lastLost, data.getD 11 0 = toByte n) ∧
      (∀ n ∈ s.cmu.lastBack, data.getD 12 0 = toByte n) ∧
      (∀ n ∈ s.cmu.lastTabFault, data.getD 13 0 = toByte n) ∧
      (∀ r ∈ s.cmu.lastRefusal, byteAt data 14 = match r with | .locked => 5 | .busy => 2) ∧
      (∀ n ∈ s.cmu.lastFaulted, n < 65536 → wordAt data 15 = n) ∧
      (s.rgu.level < 256 → byteAt data 17 = s.rgu.level) ∧
      (byteAt data 18 = match s.msu.engine with
        | .idle => 0 | .erasing => 1 | .programming => 2 | .verifying => 3 | .suspended => 4) ∧
      (s.msu.queue.length < 256 → byteAt data 19 = s.msu.queue.length) ∧
      (byteAt data 20 = match s.msu.job.kind with
        | .none => 0 | .commit => 1 | .copy => 2) ∧
      (s.msu.job.next < 65536 → wordAt data 21 = s.msu.job.next) ∧
      (byteAt data 23 = match s.msu.job.outcome with
        | .none => 0 | .running => 1 | .complete => 2 | .faulted => 3 | .stopped => 4) ∧
      bitAt (data.drop 24) 0 = s.une.muteMain ∧ bitAt (data.drop 24) 1 = s.une.muteSolo ∧
      (s.rgu.position = none → byteAt data 25 = 0xFF) ∧
      ∀ g ∈ s.rgu.position, g < 255 → byteAt data 25 = g

/-! ## Table loads -/

/-- LOAD ENTRY, for each of the eleven tables: refused with BUSY while a COMMIT runs, with RANGE for a
table, an index or a field out of range, and with CONFLICT by the rules of its owner, changing nothing;
else DONE, after which the entry reads as what was loaded, every other entry of every table reads as before,
and the store, the clock and the registration stand (R170 and the rule of each table). What the load leaves
of its unit is in State.loaded: a board AWAITED or UNUSED with its contacts all-up and the releases of those
that were down taken (R4, R5, R9 to R12), the points of an Output Map entry and the boards that follow
(R159), a unit and a
channel restarted and struck afresh by the reapply alone (R65, R96), a moved stud's demand (R97), a tremulant
at the start of an OFF phase (R110), an expression channel at a fresh reading from stage 0 (R119). -/
def Obligations.LoadEntryJudged : Prop :=
  ∀ (s : State) (p : Byte) (ps : List Byte), s.ready →
    (ps ≠ [] → TableId.of (byteAt ps 0) = none → exec (.loadEntry p ps) s =
      .next (s.frameEnded.replied p 0x01 false .range [])) ∧
    ∀ t : TableId, byteAt ps 0 = t.code → ps.length = 3 + t.entrySize →
      let i := wordAt ps 1
      let bs := ps.drop 3
      let committing := s.msu.job.kind = .commit ∧ s.msu.job.outcome = .running
      (t.size ≤ i → exec (.loadEntry p ps) s =
        .next (s.frameEnded.replied p 0x01 false .range [])) ∧
      (i < t.size → committing → exec (.loadEntry p ps) s =
        .next (s.frameEnded.replied p 0x01 false .busy [])) ∧
      (i < t.size → ¬ committing → t.stored bs = none → exec (.loadEntry p ps) s =
        .next (s.frameEnded.replied p 0x01 false .range [])) ∧
      (i < t.size → ¬ committing → t.stored bs ≠ none → s.loadConflict t i bs = true →
        exec (.loadEntry p ps) s = .next (s.frameEnded.replied p 0x01 false .conflict [])) ∧
      ∀ entry, i < t.size → ¬ committing → t.stored bs = some entry →
        s.loadConflict t i bs = false →
        ∃ s' : State, exec (.loadEntry p ps) s = .next (s'.replied p 0x01 false .done []) ∧
          s'.entryBytes t i = entry ∧ s.loaded s' i t ∧
          (∀ t' j, j < t'.size → (t' ≠ t ∨ j ≠ i) → s'.entryBytes t' j = s.entryBytes t' j) ∧
          s'.tick = s.tick ∧ s'.msu = s.msu ∧ s'.free = s.free ∧ s'.stopped = s.stopped ∧
          s'.pending = s.pending ∧ s'.rgu.stopState = s.rgu.stopState ∧
          s'.rgu.level = s.rgu.level ∧ s'.rgu.stack = s.rgu.stack ∧
          s'.cmu = { s.cmu with enable :=
            if t = .settings then s'.settings.enable else s.cmu.enable }

/-- READ ENTRY returns the table, the index and the working entry and changes nothing. FILL ENTRIES loads
its entry into a span of indices in ascending order, up to the first load that is refused, and its reply
carries the number done and that load's result; a span past the table's end, or a table byte that names none,
is refused with RANGE and 0 done (R170, R171). The command's own step makes the first load and the fill then
stands in progress, to be carried on load by load: that is the model's choice (assumption 16), and so are
RANGE for a span past the end when the count is 0 and DONE, not BUSY, for count 0 while a COMMIT runs
(assumption 15). -/
def Obligations.FillAndReadEntries : Prop :=
  ∀ (s : State) (p : Byte) (ps : List Byte), s.ready →
    (ps.length = 3 →
      (TableId.of (byteAt ps 0) = none → exec (.readEntry p ps) s =
        .next (s.frameEnded.replied p 0x02 false .range [])) ∧
      ∀ t : TableId, byteAt ps 0 = t.code →
        (t.size ≤ wordAt ps 1 → exec (.readEntry p ps) s =
          .next (s.frameEnded.replied p 0x02 false .range [])) ∧
        (wordAt ps 1 < t.size → exec (.readEntry p ps) s =
          .next (s.frameEnded.replied p 0x02 false .done (ps ++ s.entryBytes t (wordAt ps 1))))) ∧
    (ps ≠ [] → TableId.of (byteAt ps 0) = none → exec (.fillEntries p ps) s =
      .next (s.frameEnded.replied p 0x03 false .range (wordBytes 0))) ∧
    ∀ t : TableId, byteAt ps 0 = t.code → ps.length = 5 + t.entrySize →
      let first := wordAt ps 1
      let count := wordAt ps 3
      let bs := ps.drop 5
      (t.size < first + count → exec (.fillEntries p ps) s =
        .next (s.frameEnded.replied p 0x03 false .range (wordBytes 0))) ∧
      (first + count ≤ t.size →
        (count = 0 → exec (.fillEntries p ps) s =
          .next (s.frameEnded.replied p 0x03 false .done (wordBytes 0))) ∧
        (0 < count → s.msu.job.kind = .commit → s.msu.job.outcome = .running →
          exec (.fillEntries p ps) s =
            .next (s.frameEnded.replied p 0x03 false .busy (wordBytes 0))) ∧
        ∃ (s' u : State) (n : Nat) (result : Result), exec (.fillEntries p ps) s = .next s' ∧
          u = s'.finishFill ∧ u.cmu.fill = none ∧
          u.fiu.replies.length = s.fiu.replies.length + 1 ∧
          u.fiu.replies.getLast? = some ⟨p, 0x03, result, wordBytes n, false, []⟩ ∧
          n ≤ count ∧ (result = .done ↔ n = count) ∧
          (∀ j < n, some (u.entryBytes t (first + j)) = t.stored bs) ∧
          (∀ t' j, j < t'.size → (t' ≠ t ∨ j < first ∨ first + n ≤ j) →
            u.entryBytes t' j = s.entryBytes t' j) ∧
          (n < count → (u.loadEntry t (first + n) bs).1 = result) ∧
          (n = 0 → s' = s.frameEnded.replied p 0x03 false result (wordBytes 0)) ∧
          s'.cmu.fill = if 0 < n ∧ 1 < count
            then some ⟨p, t, bs, first + 1, 1, count - 2⟩ else none)

/-- Other events are taken between the loads of FILL ENTRIES, and see the entries loaded so far: while no
command waits and no byte has come, each step makes one load, which ends the fill with its reply where it is
the last or is refused; a step that takes another event than a frame leaves the fill as it stands. A frame
is handed on when the fill has ended, one with an identifier that names no command too (R167, R171). That each
load is a step in which no command waits is the model's choice (assumption 16), and so is that an
UNKNOWN_COMMAND whose identifier does name a command stands for no frame (assumption 26), which the third part
therefore leaves out. -/
def Obligations.FillTakesItsLoads : Prop :=
  (∀ (s : State) (f : Fill), s.running → s.cmu.fill = some f → s.pending = [] → s.inbound = [] →
    let r := s.loadEntry f.table f.next f.entry
    let fill (s : State) (f : Option Fill) : State := { s with cmu := { s.cmu with fill := f } }
    (r.1 = .done → f.more ≠ 0 → step s = .next (fill r.2 (some { f with
      next := f.next + 1, done := f.done + 1, more := f.more - 1 })).arbitrate) ∧
    (r.1 = .done → f.more = 0 → step s = .next
      ((fill r.2 none).replied f.panel 0x03 false .done (wordBytes (f.done + 1)))) ∧
    (r.1 ≠ .done → step s = .next
      ((fill s none).replied f.panel 0x03 false r.1 (wordBytes f.done))) ∧
    ∀ t : State, step s = .next t → t.finishFill = s.finishFill) ∧
  (∀ s : State, s.finishFill.cmu.fill = none ∧ (s.cmu.fill = none → s.finishFill = s)) ∧
  (∀ (c : Instr) (s : State), s.running →
    c.commandForm ≠ none ∨
      (∃ p payload, c = .unknownCommand p payload ∧ commandOf p payload = .unknownCommand p payload) ∨
      (∃ a payload, c = .scanFrame a payload) →
    exec c s = exec c s.finishFill) ∧
  ∀ (c : Instr) (s t : State), c.commandForm = none → (∀ p payload, c ≠ .unknownCommand p payload) →
    (∀ a payload, c ≠ .scanFrame a payload) → c ≠ .start → c ≠ .startAfresh → c ≠ .powerLoss →
    exec c s = .next t → t.cmu.fill = s.cmu.fill

/-- Which entries each table takes and what it keeps of them: an entry with valid = no is taken unchecked; a
valid one is refused with RANGE unless every field that its table has lies in its range; and either reads as
the loaded bytes with the bits that no field holds at 0, and with the fields that its kind does not have in
their absent form (R3, R24, R28, R64, R85, R97, R103, R111, R123, R152, R158, R170, R181). A valid entry
that passes conflicts with a Board Map entry that covers what it covers (R3), with the cascade rules (R103),
and with an Output Map entry of the same point (R158). That the division of a board of any kind is checked,
and that bits which the layouts neither name nor show as 0 read as 0 (bits 4..6 of byte 2 of a Board Map
entry, bits 1..7 of byte 0 of a Rank entry and the like), are the model's readings (assumptions 13 and 20). -/
def Obligations.EntryFieldsChecked : Prop :=
  ∀ bs : List Byte,
    let valid := bitAt bs 0 = true
    let b := byteAt bs
    let word := wordAt bs
    let low (i : Nat) : Nat := b i % 16
    let high (i : Nat) : Nat := b i / 16
    let keys (division : Nat) : Nat := if division = 0 then 32 else 61
    let kept (ok : Prop) [Decidable ok] (mask : List Byte) : Option (List Byte) :=
      if ok then some (maskBytes mask bs) else none
    (¬ valid →
      TableId.board.stored bs = kept True [1, 0xFF, 0x8F, 0xFF, 0xFF, 0xFF, 0xFF, 0] ∧
      TableId.stop.stored bs = kept True [0xF1, 0xFF, 0xFF, 0xFF, 0xFF, 0xFF, 0xFF, 0xFF] ∧
      TableId.rank.stored bs = kept True [1, 0xFF, 0xFF, 0xFF, 0xFF, 0xFF, 0, 0] ∧
      TableId.perc.stored bs = kept True
        [1, 0xFF, 0xFF, 0xFF, 0xFF, 0xFF, 0xFF, 0xFF, 0xFF, 0xFF, 0xFF, 0xFF, 0xFF, 0, 0, 0] ∧
      (∀ t ∈ [TableId.trap, .trem, .expr],
        t.stored bs = kept True [1, 0xFF, 0xFF, 0xFF, 0xFF, 0xFF, 0xFF, 0xFF]) ∧
      TableId.output.stored bs = kept True [3, 0xFF, 0xFF, 0xFF]) ∧
    (valid →
      TableId.board.stored bs = kept
        (b 1 ≤ 4 ∧ low 2 ≤ 4 ∧ 1 ≤ b 4 ∧ b 4 ≤ 64 ∧ 1 ≤ b 5 ∧ b 5 ≤ 4 ∧ 10 ≤ b 6 ∧ b 6 ≤ 250 ∧
          b 3 + b 4 ≤ [keys (low 2), 256, 32, 64, 4].getD (b 1) 0)
        [1, 0xFF, 0x8F, 0xFF, 0xFF, 0xFF, 0xFF, 0] ∧
      TableId.stop.stored bs = kept
        (high 0 ≤ 4 ∧ b 1 ≤ 3 ∧ b 2 < [32, 8, 32, 12].getD (b 1) 0 ∧
          (b 1 < 3 → low 4 ≤ 1 ∧ b 6 ≤ b 7 ∧ b 7 < keys (high 0)) ∧
          (b 1 < 2 → high 4 ≤ 3 ∧ b 5 / 2 = b 1 ∧
            -24 ≤ (bs.getD 3 0).toInt ∧ (bs.getD 3 0).toInt ≤ 36))
        (if b 1 < 2 then [0xF1, 0xFF, 0xFF, 0xFF, 0xFF, 0xFF, 0xFF, 0xFF]
          else if b 1 = 2 then [0xF1, 0xFF, 0xFF, 0, 0x0F, 0, 0xFF, 0xFF]
          else [0xF1, 0xFF, 0xFF, 0, 0, 0, 0, 0]) ∧
      TableId.rank.stored bs = kept
        (b 3 ≤ 1 ∧ b 1 ≤ 127 ∧ 1 ≤ b 2 ∧ b 2 ≤ 97 ∧ b 1 + b 2 ≤ 128 ∧ word 4 ≤ 4095 ∧
          word 4 + b 2 ≤ 4096)
        [1, 0xFF, 0xFF, 0xFF, 0xFF, 0xFF, 0, 0] ∧
      TableId.perc.stored bs = kept
        (b 3 ≤ 1 ∧ b 8 ≤ 2 ∧ b 1 ≤ 127 ∧ 1 ≤ b 2 ∧ b 2 ≤ 49 ∧ b 1 + b 2 ≤ 128 ∧ word 4 ≤ 4095 ∧
          word 4 + b 2 ≤ 4096 ∧ (word 6 ≤ 4095 ∨ word 6 = 0xFFFF ∧ b 8 = 0) ∧
          2 ≤ b 9 ∧ b 9 ≤ 60 ∧ 2 ≤ b 10 ∧ b 10 ≤ 60 ∧ 10 ≤ b 11 ∧ 1 ≤ b 12 ∧ b 12 ≤ 16)
        [1, 0xFF, 0xFF, 0xFF, 0xFF, 0xFF, 0xFF, 0xFF, 0xFF, 0xFF, 0xFF, 0xFF, 0xFF, 0, 0, 0] ∧
      TableId.trap.stored bs = kept
        (b 1 ≤ 1 ∧ low 4 ≤ 3 ∧ word 2 ≤ 4095 ∧ 2 ≤ b 5 ∧ b 5 ≤ 60 ∧ 2 ≤ b 6 ∧ b 6 ≤ 60 ∧ 10 ≤ b 7)
        [1, 0xFF, 0xFF, 0xFF, 0xFF, 0xFF, 0xFF, 0xFF] ∧
      TableId.trem.stored bs = kept
        (word 1 ≤ 4095 ∧ 10 ≤ b 3 ∧ 10 ≤ b 4 ∧
          (b 5 = 0 ∨ b 5 = 1 ∧ b 6 ≤ 11 ∧ 1 ≤ b 7 ∧ b 7 ≤ 8))
        (if b 5 = 1 then [1, 0xFF, 0xFF, 0xFF, 0xFF, 0xFF, 0xFF, 0xFF]
          else [1, 0xFF, 0xFF, 0xFF, 0xFF, 0xFF, 0, 0]) ∧
      TableId.expr.stored bs = kept
        (b 1 ≤ 3 ∧ b 2 ≤ 1 ∧ 1 ≤ b 3 ∧ b 3 ≤ 16 ∧ word 4 ≤ 4095 ∧ word 4 + b 3 ≤ 4096 ∧ b 6 ≤ 7)
        [1, 0xFF, 0xFF, 0xFF, 0xFF, 0xFF, 0xFF, 0xFF] ∧
      TableId.output.stored bs = kept (b 1 ≤ 1 ∧ b 2 ≤ 31 ∧ b 3 ≤ 63) [3, 0xFF, 0xFF, 0xFF]) ∧
    TableId.stud.stored bs = kept (b 0 < 32 ∨ b 0 = 0xFF) [0xFF, 0, 0, 0] ∧
    TableId.piston.stored bs = kept
      (b 0 ≤ 10 ∧ (b 0 = 1 → b 1 ≤ 4 ∧ b 2 ≤ 9) ∧ (b 0 = 2 → b 1 ≤ 19) ∧
        (b 0 = 3 → b 1 ≤ 4 ∨ b 1 = 0xFF))
      (if b 0 = 1 then [0xFF, 0xFF, 0xFF, 0] else if b 0 = 2 ∨ b 0 = 3 then [0xFF, 0xFF, 0, 0]
        else [0xFF, 0, 0, 0]) ∧
    TableId.settings.stored bs = kept
      (20 ≤ b 0 ∧ b 0 ≤ 250 ∧ 10 ≤ b 1 ∧ b 1 ≤ 250 ∧ 20 ≤ b 2 ∧ b 2 ≤ 250 ∧ b 3 ≤ 1)
      ([0xFF, 0xFF, 0xFF, 0xFF, 0xFF, 0xFF, 0xFF, 0xFF, 0xFF, 0, 0, 0] ++ List.replicate 8 0xFF) ∧
    ∀ (s : State) (i : Nat), valid →
      (TableId.board.stored bs ≠ none →
        (s.loadConflict .board i bs = true ↔ ∃ j < 32, j ≠ i ∧
          ∃ e ∈ (s.isu.board j).entry.entry?, e.kind.code = b 1 ∧
            (b 1 = 0 → e.division = low 2 ∧ e.row.code = b 2 / 128) ∧
            b 3 < e.first + e.count ∧ e.first < b 3 + b 4)) ∧
      (TableId.trem.stored bs ≠ none →
        (s.loadConflict .trem i bs = true ↔ b 5 = 1 ∧ (b 6 = i ∨
          (∃ e ∈ (s.efu.trem (b 6)).entry.entry?, e.source ≠ .free) ∨
          ∃ j < 12, j ≠ i ∧ ∃ e ∈ (s.efu.trem j).entry.entry?, ∃ ratio,
            e.source = .slave i ratio))) ∧
      (TableId.output.stored bs ≠ none →
        (s.loadConflict .output i bs = true ↔ ∃ j < 4096, j ≠ i ∧
          ∃ e ∈ (s.omu.entry j).entry?, chamberCode e.link = b 1 ∧ e.board = b 2 ∧
            e.point = b 3))

/-- What an entry reads as, loaded again, is taken and reads the same, and has its table's entry size
(R170, R181). -/
def Obligations.StoredEntryLoadsAsItself : Prop :=
  ∀ (t : TableId) (bs entry : List Byte), bs.length = t.entrySize → t.stored bs = some entry →
    entry.length = t.entrySize ∧ t.stored entry = some entry

/-! ## Frames -/

/-- Frames and commands agree: a well-formed row that is an inbound frame is read back from the bytes that
carry it, and bytes read as a command are the bytes that carry it and the command is well formed (R166,
R177, R178, R179). What the CRC covers is left free (assumption 1). -/
def Obligations.FrameRoundTrip : Prop :=
  (∀ (i : Instr) (bytes : List Byte), i.wellFormed = true → encodeFrame i = some bytes →
    decodeFrame bytes = some i) ∧
  ∀ (i : Instr) (bytes : List Byte), decodeFrame bytes = some i →
    encodeFrame i = some bytes ∧ i.wellFormed = true

/-- The frames that the part sends. A frame on a line is the mark, its kind, its address, its length, its
payload and its CRC (R177). A REPLY carries the identifier, the result's code, the attention flag and the
data (R167, R179); a TAB DRIVE frame an on-mask and an off-mask of the board's contacts (R133); a BOARD
frame the 64 levels (R162). Contact or point c is at bit c mod 8 of byte c div 8. What the CRC covers is
left free (assumption 1). -/
def Obligations.OutgoingFrameBytes : Prop :=
  (∀ f : WireFrame, ∃ crc : List Byte, crc.length = 2 ∧ f.bytes =
    0xA5#8 :: f.kind :: f.address :: toByte f.payload.length :: (f.payload ++ crc) ∧
    crc = wordBytes (frameCrc f.kind f.address (toByte f.payload.length) f.payload).toNat) ∧
  (∀ (r : Reply) (attention : Bool),
    (r.frame attention).kind = 0x81#8 ∧ (r.frame attention).address = r.address ∧
    (r.frame attention).payload.getD 0 0 = r.id ∧
    byteAt (r.frame attention).payload 1 = (match r.result with
      | .done => 0 | .queued => 1 | .busy => 2 | .range => 3
      | .conflict => 4 | .locked => 5 | .unknown => 6 | .length => 7) ∧
    byteAt (r.frame attention).payload 2 = (if attention then 1 else 0) ∧
    (r.frame attention).payload.drop 3 = r.data) ∧
  (∀ (s : State) (e : DriveEntry), let f := e.frame (s.isu.firstStop e.board)
    f.kind = 0x82#8 ∧ f.address = toByte e.board ∧ f.payload.length = 16 ∧
    ∀ board, (s.isu.board e.board).entry = .valid board → ∀ c < 64,
      (bitAt f.payload c = true ↔ ∃ d ∈ e.drives, d.stop = board.first + c ∧ d.value = true) ∧
      (bitAt f.payload (64 + c) = true ↔
        ∃ d ∈ e.drives, d.stop = board.first + c ∧ d.value = false)) ∧
  (∀ f : BoardFrame, f.frame.kind = 0xC1#8 ∧ f.frame.address = toByte f.board ∧
    f.frame.payload.length = 8 ∧ ∀ p < 64, bitAt f.frame.payload p = nth f.levels p false) ∧
  ReturnLine.idle.frame? = none ∧
  (∀ r attention, (ReturnLine.reply r attention).frame? = some (r.frame attention)) ∧
  ∀ e first, (ReturnLine.tab e first).frame? = some (e.frame first)

/-! ## Laws that every step keeps -/

/-- The array keeps its canonical form, what is to be written goes to blocks of the array, the Write Queue keeps
to 8 entries, 4 BULK entries and one waiting entry for a block (R140, R143, R148), and every entry of a table
reads as a whole entry of its size (R170, R181). -/
def Obligations.StoreLawsKept : Prop :=
  ∀ s t : State, step s = .next t →
    (s.memoryLaw → t.memoryLaw) ∧ (s.writeQueueLaw → t.writeQueueLaw) ∧
    (s.blockLaw → t.blockLaw) ∧ (s.entryLaw → t.entryLaw)

/-- The Pizzicato List, the Registration Stack and the Reply Queue keep to their capacities; a board has
one Tab Drive Queue entry and one place in a link's queue, a stop has one drive in an entry, in ascending
order, and one Settle List entry; what the FIU holds of a frame is unfinished; and a fill in progress keeps
inside its table with a place for its reply (R52, R131, R133, R135, R161, R166, R167, R171). -/
def Obligations.ListLawsKept : Prop :=
  ∀ s t : State, step s = .next t →
    (s.capacityLaw → s.fillLaw → t.capacityLaw) ∧ (s.tabLaw → t.tabLaw) ∧
    (s.linkQueueLaw → t.linkQueueLaw) ∧ (s.intakeLaw → t.intakeLaw) ∧ (s.fillLaw → t.fillLaw)

/-- The held-key and stop-on images of the UNE agree with the ISU and the RGU, the PTU's mute copies with
the UNE and the EFU's shoes with the ISU; and the SET held flag is true exactly while a pressed input has the
function SET (R13, R42, R80, R112, R124). No two valid Board Map entries cover one thing (R3). A contact is
accepted down only while its board is LIVE, and none that is suppressed (R4, R14, R19); each key's touch
state is the one that its two rows give (R9); and the held-stud image is that of the contacts (R12, R87). -/
def Obligations.ImagesKept : Prop :=
  ∀ s t : State, step s = .next t →
    (s.imageLaw → t.imageLaw) ∧ (s.setHeldLaw → t.setHeldLaw) ∧ (s.coverageLaw → t.coverageLaw) ∧
    (s.contactLaw → t.contactLaw) ∧ (s.contactLaw → s.touchLaw → t.touchLaw) ∧
    (s.coverageLaw → s.contactLaw → s.studLaw → t.studLaw)

/-- In every percussion unit the Strike Queue holds exactly the QUEUED notes, each once, and the count
striking is the number of STRIKING notes and never exceeds the budget (R66, R71). -/
def Obligations.StrikeLawKept : Prop :=
  ∀ s t : State, s.strikeLaw → step s = .next t → t.strikeLaw

/-- A trap output is requested exactly when its condition holds, a damper's exactly while its mode wants it,
a tremulant's output is on exactly in the on phases of PULSING and in ENDING, and the levels and stages of
expression lie in their ranges with C at T while no step timer runs; and a cascade of tremulants is one deep
(R78, R79, R90, R103, R108, R116, R117). -/
def Obligations.OutputStateLawsKept : Prop :=
  ∀ s t : State, step s = .next t →
    (s.trapLaw → t.trapLaw) ∧ (s.damperLaw → t.damperLaw) ∧ (s.gateLaw → t.gateLaw) ∧
    (s.stageLaw → t.stageLaw) ∧ (s.cascadeLaw → t.cascadeLaw)

/-- Each mapped point's level equals (count above 0) XOR invert and unmapped points are 0, and no two
outputs have one point (R158, R159, R160). -/
def Obligations.OutputImageKept : Prop :=
  ∀ s t : State, s.outputLaw → s.fillLaw → step s = .next t → t.outputLaw

/-- Each pipe's demand count equals the number of its live contributions, plus one if its direct flag is
set, through every event and every table load during play (R36, R38, R48); and with it each percussion
unit's damper demand and reiteration demands are its live contributions (R66, R72, R75), each trap channel's
demand its live contributions, its studs and its cue hold (R86), and each valid tremulant's its stops that
are ON (R107). -/
def Obligations.DemandLawKept : Prop :=
  ∀ s t : State, s.demandSound → s.fillLaw → step s = .next t →
    t.demandSound ∧ (s.percussionDemandLaw → t.percussionDemandLaw) ∧
    (s.tremulantDemandLaw → t.tremulantDemandLaw) ∧
    (s.coverageLaw → s.contactLaw → s.studLaw → s.trapDemandLaw → t.trapDemandLaw)

/-- Each logical output's request count equals the number of sources that request it, through every event
and every table load during play (R49, R156, R157). -/
def Obligations.RequestLawKept : Prop :=
  ∀ s t : State, s.demandSound → s.strikeLaw → s.fillLaw → s.requestLaw → step s = .next t →
    t.requestLaw

/-- Every law holds of the part right after reset. -/
def Obligations.LawsHoldAtReset : Prop :=
  State.reset.memoryLaw ∧ State.reset.writeQueueLaw ∧ State.reset.blockLaw ∧
    State.reset.entryLaw ∧ State.reset.capacityLaw ∧ State.reset.tabLaw ∧ State.reset.linkQueueLaw ∧
    State.reset.intakeLaw ∧ State.reset.fillLaw ∧ State.reset.coverageLaw ∧
    State.reset.contactLaw ∧ State.reset.touchLaw ∧ State.reset.studLaw ∧
    State.reset.imageLaw ∧ State.reset.setHeldLaw ∧ State.reset.strikeLaw ∧ State.reset.trapLaw ∧
    State.reset.damperLaw ∧ State.reset.gateLaw ∧ State.reset.stageLaw ∧ State.reset.cascadeLaw ∧
    State.reset.outputLaw ∧ State.reset.demandSound ∧ State.reset.percussionDemandLaw ∧
    State.reset.trapDemandLaw ∧ State.reset.tremulantDemandLaw ∧ State.reset.requestLaw

end
end

