-- ==== Sys2Proof/Laws/Bits.lean ====
section
/-! SUPPORT. What the array helpers and the visits do, said once. -/

namespace Sys2Proof.Machine

variable {α β : Type} {n : Nat}

/-! ## Fixed arrays -/

theorem nth_of_lt {v : Vector α n} {i : Nat} (h : i < n) (d : α) : nth v i d = v[i] := by
  simp [nth, h]

theorem nth_of_ge {v : Vector α n} {i : Nat} (h : n ≤ i) (d : α) : nth v i d = d := by
  simp [nth, Nat.not_lt.mpr h]

@[simp] theorem nth_put_same (v : Vector α n) {i : Nat} (h : i < n) (x d : α) :
    nth (put v i x) i d = x := by
  simp [nth, put, h]

@[simp] theorem nth_put_other (v : Vector α n) {i j : Nat} (h : j ≠ i) (x d : α) :
    nth (put v i x) j d = nth v j d := by
  by_cases hj : j < n
  · by_cases hi : i < n
    · simp [nth, put, hj, hi, Ne.symm h]
    · simp [put, hi]
  · simp [nth, hj]

/-- A replaced element, read anywhere. -/
theorem nth_put (v : Vector α n) (i j : Nat) (x d : α) :
    nth (put v i x) j d = if j = i ∧ j < n then x else nth v j d := by
  by_cases h : j = i
  · subst h
    by_cases hj : j < n
    · simp [hj]
    · simp [hj, nth_of_ge (Nat.not_lt.mp hj)]
  · simp [h]

@[simp] theorem nth_replicate (i : Nat) (x d : α) :
    nth (Vector.replicate n x) i d = if i < n then x else d := by
  unfold nth
  split <;> simp

/-- An array of equal elements reads as that element everywhere when it is the default too. -/
theorem nth_replicate_self (i : Nat) (d : α) : nth (Vector.replicate n d) i d = d := by simp

@[simp] theorem nth_mapV (f : α → β) (v : Vector α n) (i : Nat) (d : α) :
    nth (mapV f v) i (f d) = f (nth v i d) := by
  unfold nth
  split
  · simp [mapV]
  · rfl

/-- An element taken through `f`, inside the array. -/
theorem nth_mapV_lt (f : α → β) (v : Vector α n) {i : Nat} (h : i < n) (d : α) (e : β) :
    nth (mapV f v) i e = f (nth v i d) := by
  simp [nth, h, mapV]

@[simp] theorem nth_tabulate (f : Nat → α) (i : Nat) (d : α) :
    nth (tabulate n f) i d = if i < n then f i else d := by
  unfold nth
  split <;> simp_all [tabulate]

/-- Two arrays that read alike everywhere are equal. -/
theorem vector_ext_nth {v w : Vector α n} (d : α) (h : ∀ i, i < n → nth v i d = nth w i d) :
    v = w := by
  apply Vector.ext
  intro i hi
  simpa [nth, hi] using h i hi

@[simp] theorem put_nth_self (v : Vector α n) (i : Nat) (d : α) : put v i (nth v i d) = v := by
  apply vector_ext_nth d
  intro j _
  rw [nth_put]
  split
  · next h => rw [h.1]
  · rfl

/-! ## Visits -/

variable {σ μ ι : Type}

@[simp] theorem quiet_fst (s : σ) : (quiet s : σ × List μ).1 = s := rfl
@[simp] theorem quiet_snd (s : σ) : (quiet s : σ × List μ).2 = [] := rfl

@[simp] theorem andThen_fst (f g : σ → σ × List μ) (s : σ) :
    (andThen f g s).1 = (g (f s).1).1 := rfl
@[simp] theorem andThen_snd (f g : σ → σ × List μ) (s : σ) :
    (andThen f g s).2 = (f s).2 ++ (g (f s).1).2 := rfl

@[simp] theorem visit_nil (f : ι → σ → σ × List μ) (s : σ) : visit [] f s = (s, []) := rfl
@[simp] theorem visit_cons_fst (i : ι) (is : List ι) (f : ι → σ → σ × List μ) (s : σ) :
    (visit (i :: is) f s).1 = (visit is f (f i s).1).1 := rfl
@[simp] theorem visit_cons_snd (i : ι) (is : List ι) (f : ι → σ → σ × List μ) (s : σ) :
    (visit (i :: is) f s).2 = (f i s).2 ++ (visit is f (f i s).1).2 := rfl

/-- What every item of a visit keeps, the visit keeps. -/
theorem visit_keeps {P : σ → Prop} {f : ι → σ → σ × List μ} {is : List ι}
    (h : ∀ i ∈ is, ∀ s, P s → P (f i s).1) {s : σ} (hs : P s) : P (visit is f s).1 := by
  induction is generalizing s with
  | nil => exact hs
  | cons i is ih =>
    exact ih (fun j hj => h j (List.mem_cons_of_mem i hj)) (h i List.mem_cons_self s hs)

/-- A reading that every item of a visit leaves alone, the visit leaves alone. -/
theorem visit_frame {γ : Type} (r : σ → γ) {f : ι → σ → σ × List μ} {is : List ι}
    (h : ∀ i ∈ is, ∀ s, r (f i s).1 = r s) (s : σ) : r (visit is f s).1 = r s :=
  visit_keeps (P := fun x => r x = r s) (fun i hi x hx => (h i hi x).trans hx) rfl

/-- What every message of a visit's items satisfies, every message of the visit satisfies. -/
theorem visit_messages {Q : μ → Prop} {f : ι → σ → σ × List μ} {is : List ι}
    (h : ∀ i ∈ is, ∀ s, ∀ m ∈ (f i s).2, Q m) (s : σ) : ∀ m ∈ (visit is f s).2, Q m := by
  induction is generalizing s with
  | nil => simp
  | cons i is ih =>
    intro m hm
    simp only [visit_cons_snd, List.mem_append] at hm
    rcases hm with hm | hm
    · exact h i List.mem_cons_self s m hm
    · exact ih (fun j hj => h j (List.mem_cons_of_mem i hj)) _ m hm

/-- What a fold's every item keeps, the fold keeps. -/
theorem foldl_keeps {P : σ → Prop} {f : σ → ι → σ} {is : List ι}
    (h : ∀ i ∈ is, ∀ s, P s → P (f s i)) {s : σ} (hs : P s) : P (is.foldl f s) := by
  induction is generalizing s with
  | nil => exact hs
  | cons i is ih =>
    exact ih (fun j hj => h j (List.mem_cons_of_mem i hj)) (h i List.mem_cons_self s hs)

/-- A reading that a fold's every item leaves alone, the fold leaves alone. -/
theorem foldl_frame {γ : Type} (r : σ → γ) {f : σ → ι → σ} {is : List ι}
    (h : ∀ i ∈ is, ∀ s, r (f s i) = r s) (s : σ) : r (is.foldl f s) = r s :=
  foldl_keeps (P := fun x => r x = r s) (fun i hi x hx => (h i hi x).trans hx) rfl

end Sys2Proof.Machine
end

