-- ==== Sys2Proof/Laws/State.lean ====
section
/-! SUPPORT. One lemma for each field of State under each update of one unit. -/

namespace Sys2Proof.Machine

variable (s : State)

section
variable (x : Tick)
@[simp] theorem State.withTick_tick : (s.withTick x).tick = x := rfl
@[simp] theorem State.withTick_settings : (s.withTick x).settings = s.settings := rfl
@[simp] theorem State.withTick_isu : (s.withTick x).isu = s.isu := rfl
@[simp] theorem State.withTick_une : (s.withTick x).une = s.une := rfl
@[simp] theorem State.withTick_ptu : (s.withTick x).ptu = s.ptu := rfl
@[simp] theorem State.withTick_efu : (s.withTick x).efu = s.efu := rfl
@[simp] theorem State.withTick_rgu : (s.withTick x).rgu = s.rgu := rfl
@[simp] theorem State.withTick_msu : (s.withTick x).msu = s.msu := rfl
@[simp] theorem State.withTick_omu : (s.withTick x).omu = s.omu := rfl
@[simp] theorem State.withTick_fiu : (s.withTick x).fiu = s.fiu := rfl
@[simp] theorem State.withTick_cmu : (s.withTick x).cmu = s.cmu := rfl
@[simp] theorem State.withTick_stopped : (s.withTick x).stopped = s.stopped := rfl
@[simp] theorem State.withTick_free : (s.withTick x).free = s.free := rfl
@[simp] theorem State.withTick_pending : (s.withTick x).pending = s.pending := rfl
@[simp] theorem State.withTick_inbound : (s.withTick x).inbound = s.inbound := rfl
end

section
variable (x : Settings)
@[simp] theorem State.withSettings_tick : (s.withSettings x).tick = s.tick := rfl
@[simp] theorem State.withSettings_settings : (s.withSettings x).settings = x := rfl
@[simp] theorem State.withSettings_isu : (s.withSettings x).isu = s.isu := rfl
@[simp] theorem State.withSettings_une : (s.withSettings x).une = s.une := rfl
@[simp] theorem State.withSettings_ptu : (s.withSettings x).ptu = s.ptu := rfl
@[simp] theorem State.withSettings_efu : (s.withSettings x).efu = s.efu := rfl
@[simp] theorem State.withSettings_rgu : (s.withSettings x).rgu = s.rgu := rfl
@[simp] theorem State.withSettings_msu : (s.withSettings x).msu = s.msu := rfl
@[simp] theorem State.withSettings_omu : (s.withSettings x).omu = s.omu := rfl
@[simp] theorem State.withSettings_fiu : (s.withSettings x).fiu = s.fiu := rfl
@[simp] theorem State.withSettings_cmu : (s.withSettings x).cmu = s.cmu := rfl
@[simp] theorem State.withSettings_stopped : (s.withSettings x).stopped = s.stopped := rfl
@[simp] theorem State.withSettings_free : (s.withSettings x).free = s.free := rfl
@[simp] theorem State.withSettings_pending : (s.withSettings x).pending = s.pending := rfl
@[simp] theorem State.withSettings_inbound : (s.withSettings x).inbound = s.inbound := rfl
end

section
variable (x : Isu)
@[simp] theorem State.withIsu_tick : (s.withIsu x).tick = s.tick := rfl
@[simp] theorem State.withIsu_settings : (s.withIsu x).settings = s.settings := rfl
@[simp] theorem State.withIsu_isu : (s.withIsu x).isu = x := rfl
@[simp] theorem State.withIsu_une : (s.withIsu x).une = s.une := rfl
@[simp] theorem State.withIsu_ptu : (s.withIsu x).ptu = s.ptu := rfl
@[simp] theorem State.withIsu_efu : (s.withIsu x).efu = s.efu := rfl
@[simp] theorem State.withIsu_rgu : (s.withIsu x).rgu = s.rgu := rfl
@[simp] theorem State.withIsu_msu : (s.withIsu x).msu = s.msu := rfl
@[simp] theorem State.withIsu_omu : (s.withIsu x).omu = s.omu := rfl
@[simp] theorem State.withIsu_fiu : (s.withIsu x).fiu = s.fiu := rfl
@[simp] theorem State.withIsu_cmu : (s.withIsu x).cmu = s.cmu := rfl
@[simp] theorem State.withIsu_stopped : (s.withIsu x).stopped = s.stopped := rfl
@[simp] theorem State.withIsu_free : (s.withIsu x).free = s.free := rfl
@[simp] theorem State.withIsu_pending : (s.withIsu x).pending = s.pending := rfl
@[simp] theorem State.withIsu_inbound : (s.withIsu x).inbound = s.inbound := rfl
end

section
variable (x : Une)
@[simp] theorem State.withUne_tick : (s.withUne x).tick = s.tick := rfl
@[simp] theorem State.withUne_settings : (s.withUne x).settings = s.settings := rfl
@[simp] theorem State.withUne_isu : (s.withUne x).isu = s.isu := rfl
@[simp] theorem State.withUne_une : (s.withUne x).une = x := rfl
@[simp] theorem State.withUne_ptu : (s.withUne x).ptu = s.ptu := rfl
@[simp] theorem State.withUne_efu : (s.withUne x).efu = s.efu := rfl
@[simp] theorem State.withUne_rgu : (s.withUne x).rgu = s.rgu := rfl
@[simp] theorem State.withUne_msu : (s.withUne x).msu = s.msu := rfl
@[simp] theorem State.withUne_omu : (s.withUne x).omu = s.omu := rfl
@[simp] theorem State.withUne_fiu : (s.withUne x).fiu = s.fiu := rfl
@[simp] theorem State.withUne_cmu : (s.withUne x).cmu = s.cmu := rfl
@[simp] theorem State.withUne_stopped : (s.withUne x).stopped = s.stopped := rfl
@[simp] theorem State.withUne_free : (s.withUne x).free = s.free := rfl
@[simp] theorem State.withUne_pending : (s.withUne x).pending = s.pending := rfl
@[simp] theorem State.withUne_inbound : (s.withUne x).inbound = s.inbound := rfl
end

section
variable (x : Ptu)
@[simp] theorem State.withPtu_tick : (s.withPtu x).tick = s.tick := rfl
@[simp] theorem State.withPtu_settings : (s.withPtu x).settings = s.settings := rfl
@[simp] theorem State.withPtu_isu : (s.withPtu x).isu = s.isu := rfl
@[simp] theorem State.withPtu_une : (s.withPtu x).une = s.une := rfl
@[simp] theorem State.withPtu_ptu : (s.withPtu x).ptu = x := rfl
@[simp] theorem State.withPtu_efu : (s.withPtu x).efu = s.efu := rfl
@[simp] theorem State.withPtu_rgu : (s.withPtu x).rgu = s.rgu := rfl
@[simp] theorem State.withPtu_msu : (s.withPtu x).msu = s.msu := rfl
@[simp] theorem State.withPtu_omu : (s.withPtu x).omu = s.omu := rfl
@[simp] theorem State.withPtu_fiu : (s.withPtu x).fiu = s.fiu := rfl
@[simp] theorem State.withPtu_cmu : (s.withPtu x).cmu = s.cmu := rfl
@[simp] theorem State.withPtu_stopped : (s.withPtu x).stopped = s.stopped := rfl
@[simp] theorem State.withPtu_free : (s.withPtu x).free = s.free := rfl
@[simp] theorem State.withPtu_pending : (s.withPtu x).pending = s.pending := rfl
@[simp] theorem State.withPtu_inbound : (s.withPtu x).inbound = s.inbound := rfl
end

section
variable (x : Efu)
@[simp] theorem State.withEfu_tick : (s.withEfu x).tick = s.tick := rfl
@[simp] theorem State.withEfu_settings : (s.withEfu x).settings = s.settings := rfl
@[simp] theorem State.withEfu_isu : (s.withEfu x).isu = s.isu := rfl
@[simp] theorem State.withEfu_une : (s.withEfu x).une = s.une := rfl
@[simp] theorem State.withEfu_ptu : (s.withEfu x).ptu = s.ptu := rfl
@[simp] theorem State.withEfu_efu : (s.withEfu x).efu = x := rfl
@[simp] theorem State.withEfu_rgu : (s.withEfu x).rgu = s.rgu := rfl
@[simp] theorem State.withEfu_msu : (s.withEfu x).msu = s.msu := rfl
@[simp] theorem State.withEfu_omu : (s.withEfu x).omu = s.omu := rfl
@[simp] theorem State.withEfu_fiu : (s.withEfu x).fiu = s.fiu := rfl
@[simp] theorem State.withEfu_cmu : (s.withEfu x).cmu = s.cmu := rfl
@[simp] theorem State.withEfu_stopped : (s.withEfu x).stopped = s.stopped := rfl
@[simp] theorem State.withEfu_free : (s.withEfu x).free = s.free := rfl
@[simp] theorem State.withEfu_pending : (s.withEfu x).pending = s.pending := rfl
@[simp] theorem State.withEfu_inbound : (s.withEfu x).inbound = s.inbound := rfl
end

section
variable (x : Rgu)
@[simp] theorem State.withRgu_tick : (s.withRgu x).tick = s.tick := rfl
@[simp] theorem State.withRgu_settings : (s.withRgu x).settings = s.settings := rfl
@[simp] theorem State.withRgu_isu : (s.withRgu x).isu = s.isu := rfl
@[simp] theorem State.withRgu_une : (s.withRgu x).une = s.une := rfl
@[simp] theorem State.withRgu_ptu : (s.withRgu x).ptu = s.ptu := rfl
@[simp] theorem State.withRgu_efu : (s.withRgu x).efu = s.efu := rfl
@[simp] theorem State.withRgu_rgu : (s.withRgu x).rgu = x := rfl
@[simp] theorem State.withRgu_msu : (s.withRgu x).msu = s.msu := rfl
@[simp] theorem State.withRgu_omu : (s.withRgu x).omu = s.omu := rfl
@[simp] theorem State.withRgu_fiu : (s.withRgu x).fiu = s.fiu := rfl
@[simp] theorem State.withRgu_cmu : (s.withRgu x).cmu = s.cmu := rfl
@[simp] theorem State.withRgu_stopped : (s.withRgu x).stopped = s.stopped := rfl
@[simp] theorem State.withRgu_free : (s.withRgu x).free = s.free := rfl
@[simp] theorem State.withRgu_pending : (s.withRgu x).pending = s.pending := rfl
@[simp] theorem State.withRgu_inbound : (s.withRgu x).inbound = s.inbound := rfl
end

section
variable (x : Msu)
@[simp] theorem State.withMsu_tick : (s.withMsu x).tick = s.tick := rfl
@[simp] theorem State.withMsu_settings : (s.withMsu x).settings = s.settings := rfl
@[simp] theorem State.withMsu_isu : (s.withMsu x).isu = s.isu := rfl
@[simp] theorem State.withMsu_une : (s.withMsu x).une = s.une := rfl
@[simp] theorem State.withMsu_ptu : (s.withMsu x).ptu = s.ptu := rfl
@[simp] theorem State.withMsu_efu : (s.withMsu x).efu = s.efu := rfl
@[simp] theorem State.withMsu_rgu : (s.withMsu x).rgu = s.rgu := rfl
@[simp] theorem State.withMsu_msu : (s.withMsu x).msu = x := rfl
@[simp] theorem State.withMsu_omu : (s.withMsu x).omu = s.omu := rfl
@[simp] theorem State.withMsu_fiu : (s.withMsu x).fiu = s.fiu := rfl
@[simp] theorem State.withMsu_cmu : (s.withMsu x).cmu = s.cmu := rfl
@[simp] theorem State.withMsu_stopped : (s.withMsu x).stopped = s.stopped := rfl
@[simp] theorem State.withMsu_free : (s.withMsu x).free = s.free := rfl
@[simp] theorem State.withMsu_pending : (s.withMsu x).pending = s.pending := rfl
@[simp] theorem State.withMsu_inbound : (s.withMsu x).inbound = s.inbound := rfl
end

section
variable (x : Omu)
@[simp] theorem State.withOmu_tick : (s.withOmu x).tick = s.tick := rfl
@[simp] theorem State.withOmu_settings : (s.withOmu x).settings = s.settings := rfl
@[simp] theorem State.withOmu_isu : (s.withOmu x).isu = s.isu := rfl
@[simp] theorem State.withOmu_une : (s.withOmu x).une = s.une := rfl
@[simp] theorem State.withOmu_ptu : (s.withOmu x).ptu = s.ptu := rfl
@[simp] theorem State.withOmu_efu : (s.withOmu x).efu = s.efu := rfl
@[simp] theorem State.withOmu_rgu : (s.withOmu x).rgu = s.rgu := rfl
@[simp] theorem State.withOmu_msu : (s.withOmu x).msu = s.msu := rfl
@[simp] theorem State.withOmu_omu : (s.withOmu x).omu = x := rfl
@[simp] theorem State.withOmu_fiu : (s.withOmu x).fiu = s.fiu := rfl
@[simp] theorem State.withOmu_cmu : (s.withOmu x).cmu = s.cmu := rfl
@[simp] theorem State.withOmu_stopped : (s.withOmu x).stopped = s.stopped := rfl
@[simp] theorem State.withOmu_free : (s.withOmu x).free = s.free := rfl
@[simp] theorem State.withOmu_pending : (s.withOmu x).pending = s.pending := rfl
@[simp] theorem State.withOmu_inbound : (s.withOmu x).inbound = s.inbound := rfl
end

section
variable (x : Fiu)
@[simp] theorem State.withFiu_tick : (s.withFiu x).tick = s.tick := rfl
@[simp] theorem State.withFiu_settings : (s.withFiu x).settings = s.settings := rfl
@[simp] theorem State.withFiu_isu : (s.withFiu x).isu = s.isu := rfl
@[simp] theorem State.withFiu_une : (s.withFiu x).une = s.une := rfl
@[simp] theorem State.withFiu_ptu : (s.withFiu x).ptu = s.ptu := rfl
@[simp] theorem State.withFiu_efu : (s.withFiu x).efu = s.efu := rfl
@[simp] theorem State.withFiu_rgu : (s.withFiu x).rgu = s.rgu := rfl
@[simp] theorem State.withFiu_msu : (s.withFiu x).msu = s.msu := rfl
@[simp] theorem State.withFiu_omu : (s.withFiu x).omu = s.omu := rfl
@[simp] theorem State.withFiu_fiu : (s.withFiu x).fiu = x := rfl
@[simp] theorem State.withFiu_cmu : (s.withFiu x).cmu = s.cmu := rfl
@[simp] theorem State.withFiu_stopped : (s.withFiu x).stopped = s.stopped := rfl
@[simp] theorem State.withFiu_free : (s.withFiu x).free = s.free := rfl
@[simp] theorem State.withFiu_pending : (s.withFiu x).pending = s.pending := rfl
@[simp] theorem State.withFiu_inbound : (s.withFiu x).inbound = s.inbound := rfl
end

section
variable (x : Cmu)
@[simp] theorem State.withCmu_tick : (s.withCmu x).tick = s.tick := rfl
@[simp] theorem State.withCmu_settings : (s.withCmu x).settings = s.settings := rfl
@[simp] theorem State.withCmu_isu : (s.withCmu x).isu = s.isu := rfl
@[simp] theorem State.withCmu_une : (s.withCmu x).une = s.une := rfl
@[simp] theorem State.withCmu_ptu : (s.withCmu x).ptu = s.ptu := rfl
@[simp] theorem State.withCmu_efu : (s.withCmu x).efu = s.efu := rfl
@[simp] theorem State.withCmu_rgu : (s.withCmu x).rgu = s.rgu := rfl
@[simp] theorem State.withCmu_msu : (s.withCmu x).msu = s.msu := rfl
@[simp] theorem State.withCmu_omu : (s.withCmu x).omu = s.omu := rfl
@[simp] theorem State.withCmu_fiu : (s.withCmu x).fiu = s.fiu := rfl
@[simp] theorem State.withCmu_cmu : (s.withCmu x).cmu = x := rfl
@[simp] theorem State.withCmu_stopped : (s.withCmu x).stopped = s.stopped := rfl
@[simp] theorem State.withCmu_free : (s.withCmu x).free = s.free := rfl
@[simp] theorem State.withCmu_pending : (s.withCmu x).pending = s.pending := rfl
@[simp] theorem State.withCmu_inbound : (s.withCmu x).inbound = s.inbound := rfl
end

section
variable (x : Nat)
@[simp] theorem State.withFree_tick : (s.withFree x).tick = s.tick := rfl
@[simp] theorem State.withFree_settings : (s.withFree x).settings = s.settings := rfl
@[simp] theorem State.withFree_isu : (s.withFree x).isu = s.isu := rfl
@[simp] theorem State.withFree_une : (s.withFree x).une = s.une := rfl
@[simp] theorem State.withFree_ptu : (s.withFree x).ptu = s.ptu := rfl
@[simp] theorem State.withFree_efu : (s.withFree x).efu = s.efu := rfl
@[simp] theorem State.withFree_rgu : (s.withFree x).rgu = s.rgu := rfl
@[simp] theorem State.withFree_msu : (s.withFree x).msu = s.msu := rfl
@[simp] theorem State.withFree_omu : (s.withFree x).omu = s.omu := rfl
@[simp] theorem State.withFree_fiu : (s.withFree x).fiu = s.fiu := rfl
@[simp] theorem State.withFree_cmu : (s.withFree x).cmu = s.cmu := rfl
@[simp] theorem State.withFree_stopped : (s.withFree x).stopped = s.stopped := rfl
@[simp] theorem State.withFree_free : (s.withFree x).free = x := rfl
@[simp] theorem State.withFree_pending : (s.withFree x).pending = s.pending := rfl
@[simp] theorem State.withFree_inbound : (s.withFree x).inbound = s.inbound := rfl
end

end Sys2Proof.Machine
end

