-- ==== Sys2Proof/Laws/Route.lean ====
section
/-! SUPPORT. What each way of passing messages between units can change: one lemma for each field it
leaves alone, and the field it sets. -/

namespace Sys2Proof.Machine

variable (s : State)

/-! ## Requests and causes -/

@[simp] theorem State.requests_tick (rs : List Req) : (s.requests rs).tick = s.tick := rfl
@[simp] theorem State.requests_settings (rs : List Req) : (s.requests rs).settings = s.settings := rfl
@[simp] theorem State.requests_isu (rs : List Req) : (s.requests rs).isu = s.isu := rfl
@[simp] theorem State.requests_une (rs : List Req) : (s.requests rs).une = s.une := rfl
@[simp] theorem State.requests_ptu (rs : List Req) : (s.requests rs).ptu = s.ptu := rfl
@[simp] theorem State.requests_efu (rs : List Req) : (s.requests rs).efu = s.efu := rfl
@[simp] theorem State.requests_rgu (rs : List Req) : (s.requests rs).rgu = s.rgu := rfl
@[simp] theorem State.requests_msu (rs : List Req) : (s.requests rs).msu = s.msu := rfl
@[simp] theorem State.requests_fiu (rs : List Req) : (s.requests rs).fiu = s.fiu := rfl
@[simp] theorem State.requests_cmu (rs : List Req) : (s.requests rs).cmu = s.cmu := rfl
@[simp] theorem State.requests_stopped (rs : List Req) : (s.requests rs).stopped = s.stopped := rfl
@[simp] theorem State.requests_free (rs : List Req) : (s.requests rs).free = s.free := rfl
@[simp] theorem State.requests_pending (rs : List Req) : (s.requests rs).pending = s.pending := rfl
@[simp] theorem State.requests_inbound (rs : List Req) : (s.requests rs).inbound = s.inbound := rfl

@[simp] theorem State.requests_omu (rs : List Req) : (s.requests rs).omu = s.omu.takeAll rs := rfl

@[simp] theorem State.raise_tick (r : Raise) : (s.raise r).tick = s.tick := rfl
@[simp] theorem State.raise_settings (r : Raise) : (s.raise r).settings = s.settings := rfl
@[simp] theorem State.raise_isu (r : Raise) : (s.raise r).isu = s.isu := rfl
@[simp] theorem State.raise_une (r : Raise) : (s.raise r).une = s.une := rfl
@[simp] theorem State.raise_ptu (r : Raise) : (s.raise r).ptu = s.ptu := rfl
@[simp] theorem State.raise_efu (r : Raise) : (s.raise r).efu = s.efu := rfl
@[simp] theorem State.raise_rgu (r : Raise) : (s.raise r).rgu = s.rgu := rfl
@[simp] theorem State.raise_msu (r : Raise) : (s.raise r).msu = s.msu := rfl
@[simp] theorem State.raise_omu (r : Raise) : (s.raise r).omu = s.omu := rfl
@[simp] theorem State.raise_fiu (r : Raise) : (s.raise r).fiu = s.fiu := rfl
@[simp] theorem State.raise_stopped (r : Raise) : (s.raise r).stopped = s.stopped := rfl
@[simp] theorem State.raise_free (r : Raise) : (s.raise r).free = s.free := rfl
@[simp] theorem State.raise_pending (r : Raise) : (s.raise r).pending = s.pending := rfl
@[simp] theorem State.raise_inbound (r : Raise) : (s.raise r).inbound = s.inbound := rfl

@[simp] theorem State.raise_cmu (r : Raise) : (s.raise r).cmu = s.cmu.raise r := rfl

@[simp] theorem State.raises_tick (rs : List Raise) : (s.raises rs).tick = s.tick := by
  unfold State.raises; apply foldl_frame State.tick; intros; rfl
@[simp] theorem State.raises_settings (rs : List Raise) : (s.raises rs).settings = s.settings := by
  unfold State.raises; apply foldl_frame State.settings; intros; rfl
@[simp] theorem State.raises_isu (rs : List Raise) : (s.raises rs).isu = s.isu := by
  unfold State.raises; apply foldl_frame State.isu; intros; rfl
@[simp] theorem State.raises_une (rs : List Raise) : (s.raises rs).une = s.une := by
  unfold State.raises; apply foldl_frame State.une; intros; rfl
@[simp] theorem State.raises_ptu (rs : List Raise) : (s.raises rs).ptu = s.ptu := by
  unfold State.raises; apply foldl_frame State.ptu; intros; rfl
@[simp] theorem State.raises_efu (rs : List Raise) : (s.raises rs).efu = s.efu := by
  unfold State.raises; apply foldl_frame State.efu; intros; rfl
@[simp] theorem State.raises_rgu (rs : List Raise) : (s.raises rs).rgu = s.rgu := by
  unfold State.raises; apply foldl_frame State.rgu; intros; rfl
@[simp] theorem State.raises_msu (rs : List Raise) : (s.raises rs).msu = s.msu := by
  unfold State.raises; apply foldl_frame State.msu; intros; rfl
@[simp] theorem State.raises_omu (rs : List Raise) : (s.raises rs).omu = s.omu := by
  unfold State.raises; apply foldl_frame State.omu; intros; rfl
@[simp] theorem State.raises_fiu (rs : List Raise) : (s.raises rs).fiu = s.fiu := by
  unfold State.raises; apply foldl_frame State.fiu; intros; rfl
@[simp] theorem State.raises_stopped (rs : List Raise) : (s.raises rs).stopped = s.stopped := by
  unfold State.raises; apply foldl_frame State.stopped; intros; rfl
@[simp] theorem State.raises_free (rs : List Raise) : (s.raises rs).free = s.free := by
  unfold State.raises; apply foldl_frame State.free; intros; rfl
@[simp] theorem State.raises_pending (rs : List Raise) : (s.raises rs).pending = s.pending := by
  unfold State.raises; apply foldl_frame State.pending; intros; rfl
@[simp] theorem State.raises_inbound (rs : List Raise) : (s.raises rs).inbound = s.inbound := by
  unfold State.raises; apply foldl_frame State.inbound; intros; rfl

theorem State.raises_cmu (rs : List Raise) :
    (s.raises rs).cmu = rs.foldl Cmu.raise s.cmu := by
  induction rs generalizing s with
  | nil => rfl
  | cons r rs ih => exact ih (s.raise r)

/-! ## PTU -/

@[simp] theorem State.ptuDo_tick (f : Ptu → Ptu × List Req) : (s.ptuDo f).tick = s.tick := rfl
@[simp] theorem State.ptuDo_settings (f : Ptu → Ptu × List Req) : (s.ptuDo f).settings = s.settings := rfl
@[simp] theorem State.ptuDo_isu (f : Ptu → Ptu × List Req) : (s.ptuDo f).isu = s.isu := rfl
@[simp] theorem State.ptuDo_une (f : Ptu → Ptu × List Req) : (s.ptuDo f).une = s.une := rfl
@[simp] theorem State.ptuDo_efu (f : Ptu → Ptu × List Req) : (s.ptuDo f).efu = s.efu := rfl
@[simp] theorem State.ptuDo_rgu (f : Ptu → Ptu × List Req) : (s.ptuDo f).rgu = s.rgu := rfl
@[simp] theorem State.ptuDo_msu (f : Ptu → Ptu × List Req) : (s.ptuDo f).msu = s.msu := rfl
@[simp] theorem State.ptuDo_fiu (f : Ptu → Ptu × List Req) : (s.ptuDo f).fiu = s.fiu := rfl
@[simp] theorem State.ptuDo_cmu (f : Ptu → Ptu × List Req) : (s.ptuDo f).cmu = s.cmu := rfl
@[simp] theorem State.ptuDo_stopped (f : Ptu → Ptu × List Req) : (s.ptuDo f).stopped = s.stopped := rfl
@[simp] theorem State.ptuDo_free (f : Ptu → Ptu × List Req) : (s.ptuDo f).free = s.free := rfl
@[simp] theorem State.ptuDo_pending (f : Ptu → Ptu × List Req) : (s.ptuDo f).pending = s.pending := rfl
@[simp] theorem State.ptuDo_inbound (f : Ptu → Ptu × List Req) : (s.ptuDo f).inbound = s.inbound := rfl

@[simp] theorem State.ptuDo_ptu (f : Ptu → Ptu × List Req) : (s.ptuDo f).ptu = (f s.ptu).1 := rfl
@[simp] theorem State.ptuDo_omu (f : Ptu → Ptu × List Req) :
    (s.ptuDo f).omu = s.omu.takeAll (f s.ptu).2 := rfl

/-! ## EFU -/

@[simp] theorem State.efuDo_tick (f : Efu → Efu × List Req) : (s.efuDo f).tick = s.tick := rfl
@[simp] theorem State.efuDo_settings (f : Efu → Efu × List Req) : (s.efuDo f).settings = s.settings := rfl
@[simp] theorem State.efuDo_isu (f : Efu → Efu × List Req) : (s.efuDo f).isu = s.isu := rfl
@[simp] theorem State.efuDo_une (f : Efu → Efu × List Req) : (s.efuDo f).une = s.une := rfl
@[simp] theorem State.efuDo_ptu (f : Efu → Efu × List Req) : (s.efuDo f).ptu = s.ptu := rfl
@[simp] theorem State.efuDo_rgu (f : Efu → Efu × List Req) : (s.efuDo f).rgu = s.rgu := rfl
@[simp] theorem State.efuDo_msu (f : Efu → Efu × List Req) : (s.efuDo f).msu = s.msu := rfl
@[simp] theorem State.efuDo_fiu (f : Efu → Efu × List Req) : (s.efuDo f).fiu = s.fiu := rfl
@[simp] theorem State.efuDo_cmu (f : Efu → Efu × List Req) : (s.efuDo f).cmu = s.cmu := rfl
@[simp] theorem State.efuDo_stopped (f : Efu → Efu × List Req) : (s.efuDo f).stopped = s.stopped := rfl
@[simp] theorem State.efuDo_free (f : Efu → Efu × List Req) : (s.efuDo f).free = s.free := rfl
@[simp] theorem State.efuDo_pending (f : Efu → Efu × List Req) : (s.efuDo f).pending = s.pending := rfl
@[simp] theorem State.efuDo_inbound (f : Efu → Efu × List Req) : (s.efuDo f).inbound = s.inbound := rfl

@[simp] theorem State.efuDo_efu (f : Efu → Efu × List Req) : (s.efuDo f).efu = (f s.efu).1 := rfl
@[simp] theorem State.efuDo_omu (f : Efu → Efu × List Req) :
    (s.efuDo f).omu = s.omu.takeAll (f s.efu).2 := rfl

/-! ## UNE -/

@[simp] theorem State.uneMsg_une (m : UneMsg) : (s.uneMsg m).une = s.une := by cases m <;> rfl
@[simp] theorem State.uneMsg_tick (m : UneMsg) : (s.uneMsg m).tick = s.tick := by cases m <;> rfl
@[simp] theorem State.uneMsg_settings (m : UneMsg) : (s.uneMsg m).settings = s.settings := by cases m <;> rfl
@[simp] theorem State.uneMsg_isu (m : UneMsg) : (s.uneMsg m).isu = s.isu := by cases m <;> rfl
@[simp] theorem State.uneMsg_rgu (m : UneMsg) : (s.uneMsg m).rgu = s.rgu := by cases m <;> rfl
@[simp] theorem State.uneMsg_msu (m : UneMsg) : (s.uneMsg m).msu = s.msu := by cases m <;> rfl
@[simp] theorem State.uneMsg_fiu (m : UneMsg) : (s.uneMsg m).fiu = s.fiu := by cases m <;> rfl
@[simp] theorem State.uneMsg_cmu (m : UneMsg) : (s.uneMsg m).cmu = s.cmu := by cases m <;> rfl
@[simp] theorem State.uneMsg_stopped (m : UneMsg) : (s.uneMsg m).stopped = s.stopped := by cases m <;> rfl
@[simp] theorem State.uneMsg_free (m : UneMsg) : (s.uneMsg m).free = s.free := by cases m <;> rfl
@[simp] theorem State.uneMsg_pending (m : UneMsg) : (s.uneMsg m).pending = s.pending := by cases m <;> rfl
@[simp] theorem State.uneMsg_inbound (m : UneMsg) : (s.uneMsg m).inbound = s.inbound := by cases m <;> rfl

@[simp] theorem State.uneMsgs_une (ms : List UneMsg) : (s.uneMsgs ms).une = s.une := by
  unfold State.uneMsgs; apply foldl_frame State.une; intros; simp
@[simp] theorem State.uneMsgs_tick (ms : List UneMsg) : (s.uneMsgs ms).tick = s.tick := by
  unfold State.uneMsgs; apply foldl_frame State.tick; intros; simp
@[simp] theorem State.uneMsgs_settings (ms : List UneMsg) : (s.uneMsgs ms).settings = s.settings := by
  unfold State.uneMsgs; apply foldl_frame State.settings; intros; simp
@[simp] theorem State.uneMsgs_isu (ms : List UneMsg) : (s.uneMsgs ms).isu = s.isu := by
  unfold State.uneMsgs; apply foldl_frame State.isu; intros; simp
@[simp] theorem State.uneMsgs_rgu (ms : List UneMsg) : (s.uneMsgs ms).rgu = s.rgu := by
  unfold State.uneMsgs; apply foldl_frame State.rgu; intros; simp
@[simp] theorem State.uneMsgs_msu (ms : List UneMsg) : (s.uneMsgs ms).msu = s.msu := by
  unfold State.uneMsgs; apply foldl_frame State.msu; intros; simp
@[simp] theorem State.uneMsgs_fiu (ms : List UneMsg) : (s.uneMsgs ms).fiu = s.fiu := by
  unfold State.uneMsgs; apply foldl_frame State.fiu; intros; simp
@[simp] theorem State.uneMsgs_cmu (ms : List UneMsg) : (s.uneMsgs ms).cmu = s.cmu := by
  unfold State.uneMsgs; apply foldl_frame State.cmu; intros; simp
@[simp] theorem State.uneMsgs_stopped (ms : List UneMsg) : (s.uneMsgs ms).stopped = s.stopped := by
  unfold State.uneMsgs; apply foldl_frame State.stopped; intros; simp
@[simp] theorem State.uneMsgs_free (ms : List UneMsg) : (s.uneMsgs ms).free = s.free := by
  unfold State.uneMsgs; apply foldl_frame State.free; intros; simp
@[simp] theorem State.uneMsgs_pending (ms : List UneMsg) : (s.uneMsgs ms).pending = s.pending := by
  unfold State.uneMsgs; apply foldl_frame State.pending; intros; simp
@[simp] theorem State.uneMsgs_inbound (ms : List UneMsg) : (s.uneMsgs ms).inbound = s.inbound := by
  unfold State.uneMsgs; apply foldl_frame State.inbound; intros; simp

@[simp] theorem State.uneDo_tick (f : Ptu → Efu → Une → Une × List UneMsg) : (s.uneDo f).tick = s.tick := by simp [State.uneDo]
@[simp] theorem State.uneDo_settings (f : Ptu → Efu → Une → Une × List UneMsg) : (s.uneDo f).settings = s.settings := by simp [State.uneDo]
@[simp] theorem State.uneDo_isu (f : Ptu → Efu → Une → Une × List UneMsg) : (s.uneDo f).isu = s.isu := by simp [State.uneDo]
@[simp] theorem State.uneDo_rgu (f : Ptu → Efu → Une → Une × List UneMsg) : (s.uneDo f).rgu = s.rgu := by simp [State.uneDo]
@[simp] theorem State.uneDo_msu (f : Ptu → Efu → Une → Une × List UneMsg) : (s.uneDo f).msu = s.msu := by simp [State.uneDo]
@[simp] theorem State.uneDo_fiu (f : Ptu → Efu → Une → Une × List UneMsg) : (s.uneDo f).fiu = s.fiu := by simp [State.uneDo]
@[simp] theorem State.uneDo_cmu (f : Ptu → Efu → Une → Une × List UneMsg) : (s.uneDo f).cmu = s.cmu := by simp [State.uneDo]
@[simp] theorem State.uneDo_stopped (f : Ptu → Efu → Une → Une × List UneMsg) : (s.uneDo f).stopped = s.stopped := by simp [State.uneDo]
@[simp] theorem State.uneDo_free (f : Ptu → Efu → Une → Une × List UneMsg) : (s.uneDo f).free = s.free := by simp [State.uneDo]
@[simp] theorem State.uneDo_pending (f : Ptu → Efu → Une → Une × List UneMsg) : (s.uneDo f).pending = s.pending := by simp [State.uneDo]
@[simp] theorem State.uneDo_inbound (f : Ptu → Efu → Une → Une × List UneMsg) : (s.uneDo f).inbound = s.inbound := by simp [State.uneDo]

@[simp] theorem State.uneDo_une (f : Ptu → Efu → Une → Une × List UneMsg) :
    (s.uneDo f).une = (f s.ptu s.efu s.une).1 := by simp [State.uneDo]

@[simp] theorem State.keyEvent_tick (d k : Nat) (old new : Touch) : (s.keyEvent d k old new).tick = s.tick := by
  simp [State.keyEvent]
@[simp] theorem State.keyEvent_settings (d k : Nat) (old new : Touch) : (s.keyEvent d k old new).settings = s.settings := by
  simp [State.keyEvent]
@[simp] theorem State.keyEvent_isu (d k : Nat) (old new : Touch) : (s.keyEvent d k old new).isu = s.isu := by
  simp [State.keyEvent]
@[simp] theorem State.keyEvent_rgu (d k : Nat) (old new : Touch) : (s.keyEvent d k old new).rgu = s.rgu := by
  simp [State.keyEvent]
@[simp] theorem State.keyEvent_msu (d k : Nat) (old new : Touch) : (s.keyEvent d k old new).msu = s.msu := by
  simp [State.keyEvent]
@[simp] theorem State.keyEvent_fiu (d k : Nat) (old new : Touch) : (s.keyEvent d k old new).fiu = s.fiu := by
  simp [State.keyEvent]
@[simp] theorem State.keyEvent_cmu (d k : Nat) (old new : Touch) : (s.keyEvent d k old new).cmu = s.cmu := by
  simp [State.keyEvent]
@[simp] theorem State.keyEvent_stopped (d k : Nat) (old new : Touch) : (s.keyEvent d k old new).stopped = s.stopped := by
  simp [State.keyEvent]
@[simp] theorem State.keyEvent_free (d k : Nat) (old new : Touch) : (s.keyEvent d k old new).free = s.free := by
  simp [State.keyEvent]
@[simp] theorem State.keyEvent_pending (d k : Nat) (old new : Touch) : (s.keyEvent d k old new).pending = s.pending := by
  simp [State.keyEvent]
@[simp] theorem State.keyEvent_inbound (d k : Nat) (old new : Touch) : (s.keyEvent d k old new).inbound = s.inbound := by
  simp [State.keyEvent]

@[simp] theorem State.stopEvent_tick (st : Nat) (on : Bool) : (s.stopEvent st on).tick = s.tick := by simp [State.stopEvent]
@[simp] theorem State.stopEvent_settings (st : Nat) (on : Bool) : (s.stopEvent st on).settings = s.settings := by simp [State.stopEvent]
@[simp] theorem State.stopEvent_isu (st : Nat) (on : Bool) : (s.stopEvent st on).isu = s.isu := by simp [State.stopEvent]
@[simp] theorem State.stopEvent_rgu (st : Nat) (on : Bool) : (s.stopEvent st on).rgu = s.rgu := by simp [State.stopEvent]
@[simp] theorem State.stopEvent_msu (st : Nat) (on : Bool) : (s.stopEvent st on).msu = s.msu := by simp [State.stopEvent]
@[simp] theorem State.stopEvent_fiu (st : Nat) (on : Bool) : (s.stopEvent st on).fiu = s.fiu := by simp [State.stopEvent]
@[simp] theorem State.stopEvent_cmu (st : Nat) (on : Bool) : (s.stopEvent st on).cmu = s.cmu := by simp [State.stopEvent]
@[simp] theorem State.stopEvent_stopped (st : Nat) (on : Bool) : (s.stopEvent st on).stopped = s.stopped := by simp [State.stopEvent]
@[simp] theorem State.stopEvent_free (st : Nat) (on : Bool) : (s.stopEvent st on).free = s.free := by simp [State.stopEvent]
@[simp] theorem State.stopEvent_pending (st : Nat) (on : Bool) : (s.stopEvent st on).pending = s.pending := by simp [State.stopEvent]
@[simp] theorem State.stopEvent_inbound (st : Nat) (on : Bool) : (s.stopEvent st on).inbound = s.inbound := by simp [State.stopEvent]

/-! ## RGU -/

@[simp] theorem State.rguMsg_tick (m : RguMsg) : (s.rguMsg m).tick = s.tick := by
  cases m <;> simp [State.rguMsg]
@[simp] theorem State.rguMsg_settings (m : RguMsg) : (s.rguMsg m).settings = s.settings := by
  cases m <;> simp [State.rguMsg]
@[simp] theorem State.rguMsg_isu (m : RguMsg) : (s.rguMsg m).isu = s.isu := by
  cases m <;> simp [State.rguMsg]
@[simp] theorem State.rguMsg_rgu (m : RguMsg) : (s.rguMsg m).rgu = s.rgu := by
  cases m <;> simp [State.rguMsg]
@[simp] theorem State.rguMsg_msu (m : RguMsg) : (s.rguMsg m).msu = s.msu := by
  cases m <;> simp [State.rguMsg]
@[simp] theorem State.rguMsg_stopped (m : RguMsg) : (s.rguMsg m).stopped = s.stopped := by
  cases m <;> simp [State.rguMsg]
@[simp] theorem State.rguMsg_free (m : RguMsg) : (s.rguMsg m).free = s.free := by
  cases m <;> simp [State.rguMsg]
@[simp] theorem State.rguMsg_pending (m : RguMsg) : (s.rguMsg m).pending = s.pending := by
  cases m <;> simp [State.rguMsg]
@[simp] theorem State.rguMsg_inbound (m : RguMsg) : (s.rguMsg m).inbound = s.inbound := by
  cases m <;> simp [State.rguMsg]

@[simp] theorem State.rguMsgs_tick (ms : List RguMsg) : (s.rguMsgs ms).tick = s.tick := by
  unfold State.rguMsgs; apply foldl_frame State.tick; intros; simp
@[simp] theorem State.rguMsgs_settings (ms : List RguMsg) : (s.rguMsgs ms).settings = s.settings := by
  unfold State.rguMsgs; apply foldl_frame State.settings; intros; simp
@[simp] theorem State.rguMsgs_isu (ms : List RguMsg) : (s.rguMsgs ms).isu = s.isu := by
  unfold State.rguMsgs; apply foldl_frame State.isu; intros; simp
@[simp] theorem State.rguMsgs_rgu (ms : List RguMsg) : (s.rguMsgs ms).rgu = s.rgu := by
  unfold State.rguMsgs; apply foldl_frame State.rgu; intros; simp
@[simp] theorem State.rguMsgs_msu (ms : List RguMsg) : (s.rguMsgs ms).msu = s.msu := by
  unfold State.rguMsgs; apply foldl_frame State.msu; intros; simp
@[simp] theorem State.rguMsgs_stopped (ms : List RguMsg) : (s.rguMsgs ms).stopped = s.stopped := by
  unfold State.rguMsgs; apply foldl_frame State.stopped; intros; simp
@[simp] theorem State.rguMsgs_free (ms : List RguMsg) : (s.rguMsgs ms).free = s.free := by
  unfold State.rguMsgs; apply foldl_frame State.free; intros; simp
@[simp] theorem State.rguMsgs_pending (ms : List RguMsg) : (s.rguMsgs ms).pending = s.pending := by
  unfold State.rguMsgs; apply foldl_frame State.pending; intros; simp
@[simp] theorem State.rguMsgs_inbound (ms : List RguMsg) : (s.rguMsgs ms).inbound = s.inbound := by
  unfold State.rguMsgs; apply foldl_frame State.inbound; intros; simp

@[simp] theorem State.rguDo_tick (f : Isu → Rgu → Rgu × List RguMsg) : (s.rguDo f).tick = s.tick := by simp [State.rguDo]
@[simp] theorem State.rguDo_settings (f : Isu → Rgu → Rgu × List RguMsg) : (s.rguDo f).settings = s.settings := by simp [State.rguDo]
@[simp] theorem State.rguDo_isu (f : Isu → Rgu → Rgu × List RguMsg) : (s.rguDo f).isu = s.isu := by simp [State.rguDo]
@[simp] theorem State.rguDo_msu (f : Isu → Rgu → Rgu × List RguMsg) : (s.rguDo f).msu = s.msu := by simp [State.rguDo]
@[simp] theorem State.rguDo_stopped (f : Isu → Rgu → Rgu × List RguMsg) : (s.rguDo f).stopped = s.stopped := by simp [State.rguDo]
@[simp] theorem State.rguDo_free (f : Isu → Rgu → Rgu × List RguMsg) : (s.rguDo f).free = s.free := by simp [State.rguDo]
@[simp] theorem State.rguDo_pending (f : Isu → Rgu → Rgu × List RguMsg) : (s.rguDo f).pending = s.pending := by simp [State.rguDo]
@[simp] theorem State.rguDo_inbound (f : Isu → Rgu → Rgu × List RguMsg) : (s.rguDo f).inbound = s.inbound := by simp [State.rguDo]

@[simp] theorem State.rguDo_rgu (f : Isu → Rgu → Rgu × List RguMsg) :
    (s.rguDo f).rgu = (f s.isu s.rgu).1 := by simp [State.rguDo]

/-! ## MSU -/

@[simp] theorem State.msuDo_tick (f : Msu → Msu × List Raise) : (s.msuDo f).tick = s.tick := by simp [State.msuDo]
@[simp] theorem State.msuDo_settings (f : Msu → Msu × List Raise) : (s.msuDo f).settings = s.settings := by simp [State.msuDo]
@[simp] theorem State.msuDo_isu (f : Msu → Msu × List Raise) : (s.msuDo f).isu = s.isu := by simp [State.msuDo]
@[simp] theorem State.msuDo_une (f : Msu → Msu × List Raise) : (s.msuDo f).une = s.une := by simp [State.msuDo]
@[simp] theorem State.msuDo_ptu (f : Msu → Msu × List Raise) : (s.msuDo f).ptu = s.ptu := by simp [State.msuDo]
@[simp] theorem State.msuDo_efu (f : Msu → Msu × List Raise) : (s.msuDo f).efu = s.efu := by simp [State.msuDo]
@[simp] theorem State.msuDo_rgu (f : Msu → Msu × List Raise) : (s.msuDo f).rgu = s.rgu := by simp [State.msuDo]
@[simp] theorem State.msuDo_omu (f : Msu → Msu × List Raise) : (s.msuDo f).omu = s.omu := by simp [State.msuDo]
@[simp] theorem State.msuDo_fiu (f : Msu → Msu × List Raise) : (s.msuDo f).fiu = s.fiu := by simp [State.msuDo]
@[simp] theorem State.msuDo_stopped (f : Msu → Msu × List Raise) : (s.msuDo f).stopped = s.stopped := by simp [State.msuDo]
@[simp] theorem State.msuDo_free (f : Msu → Msu × List Raise) : (s.msuDo f).free = s.free := by simp [State.msuDo]
@[simp] theorem State.msuDo_pending (f : Msu → Msu × List Raise) : (s.msuDo f).pending = s.pending := by simp [State.msuDo]
@[simp] theorem State.msuDo_inbound (f : Msu → Msu × List Raise) : (s.msuDo f).inbound = s.inbound := by simp [State.msuDo]

@[simp] theorem State.msuDo_msu (f : Msu → Msu × List Raise) : (s.msuDo f).msu = (f s.msu).1 := by
  simp [State.msuDo]
theorem State.msuDo_cmu (f : Msu → Msu × List Raise) :
    (s.msuDo f).cmu = (f s.msu).2.foldl Cmu.raise s.cmu := by
  simp [State.msuDo, State.raises_cmu]

@[simp] theorem State.storeAdvance_tick : (s.storeAdvance).tick = s.tick := by simp [State.storeAdvance]
@[simp] theorem State.storeAdvance_settings : (s.storeAdvance).settings = s.settings := by simp [State.storeAdvance]
@[simp] theorem State.storeAdvance_isu : (s.storeAdvance).isu = s.isu := by simp [State.storeAdvance]
@[simp] theorem State.storeAdvance_une : (s.storeAdvance).une = s.une := by simp [State.storeAdvance]
@[simp] theorem State.storeAdvance_ptu : (s.storeAdvance).ptu = s.ptu := by simp [State.storeAdvance]
@[simp] theorem State.storeAdvance_efu : (s.storeAdvance).efu = s.efu := by simp [State.storeAdvance]
@[simp] theorem State.storeAdvance_rgu : (s.storeAdvance).rgu = s.rgu := by simp [State.storeAdvance]
@[simp] theorem State.storeAdvance_omu : (s.storeAdvance).omu = s.omu := by simp [State.storeAdvance]
@[simp] theorem State.storeAdvance_fiu : (s.storeAdvance).fiu = s.fiu := by simp [State.storeAdvance]
@[simp] theorem State.storeAdvance_stopped : (s.storeAdvance).stopped = s.stopped := by simp [State.storeAdvance]
@[simp] theorem State.storeAdvance_free : (s.storeAdvance).free = s.free := by simp [State.storeAdvance]
@[simp] theorem State.storeAdvance_pending : (s.storeAdvance).pending = s.pending := by simp [State.storeAdvance]
@[simp] theorem State.storeAdvance_inbound : (s.storeAdvance).inbound = s.inbound := by simp [State.storeAdvance]

@[simp] theorem State.readStore_tick (block : Nat) : ((s.readStore block).2).tick = s.tick := by
  unfold State.readStore; dsimp only; split <;> simp
@[simp] theorem State.readStore_settings (block : Nat) : ((s.readStore block).2).settings = s.settings := by
  unfold State.readStore; dsimp only; split <;> simp
@[simp] theorem State.readStore_isu (block : Nat) : ((s.readStore block).2).isu = s.isu := by
  unfold State.readStore; dsimp only; split <;> simp
@[simp] theorem State.readStore_une (block : Nat) : ((s.readStore block).2).une = s.une := by
  unfold State.readStore; dsimp only; split <;> simp
@[simp] theorem State.readStore_ptu (block : Nat) : ((s.readStore block).2).ptu = s.ptu := by
  unfold State.readStore; dsimp only; split <;> simp
@[simp] theorem State.readStore_efu (block : Nat) : ((s.readStore block).2).efu = s.efu := by
  unfold State.readStore; dsimp only; split <;> simp
@[simp] theorem State.readStore_rgu (block : Nat) : ((s.readStore block).2).rgu = s.rgu := by
  unfold State.readStore; dsimp only; split <;> simp
@[simp] theorem State.readStore_omu (block : Nat) : ((s.readStore block).2).omu = s.omu := by
  unfold State.readStore; dsimp only; split <;> simp
@[simp] theorem State.readStore_fiu (block : Nat) : ((s.readStore block).2).fiu = s.fiu := by
  unfold State.readStore; dsimp only; split <;> simp
@[simp] theorem State.readStore_stopped (block : Nat) : ((s.readStore block).2).stopped = s.stopped := by
  unfold State.readStore; dsimp only; split <;> simp
@[simp] theorem State.readStore_free (block : Nat) : ((s.readStore block).2).free = s.free := by
  unfold State.readStore; dsimp only; split <;> simp
@[simp] theorem State.readStore_pending (block : Nat) : ((s.readStore block).2).pending = s.pending := by
  unfold State.readStore; dsimp only; split <;> simp
@[simp] theorem State.readStore_inbound (block : Nat) : ((s.readStore block).2).inbound = s.inbound := by
  unfold State.readStore; dsimp only; split <;> simp

/-- A write request that is taken: the entry joins the Write Queue, then the store advances. -/
theorem requestWrite_some {s : State} {w : Write} {s' : State} (h : s.requestWrite w = some s') :
    ∃ m, s.msu.enqueue w = some m ∧ (s.withMsu m).storeAdvance = s' := by
  unfold State.requestWrite at h
  split at h
  · cases h
  · simpa using h

theorem State.requestWrite_tick {w : Write} {s' : State} (h : s.requestWrite w = some s') :
    s'.tick = s.tick := by
  obtain ⟨m, -, rfl⟩ := requestWrite_some h; simp
theorem State.requestWrite_settings {w : Write} {s' : State} (h : s.requestWrite w = some s') :
    s'.settings = s.settings := by
  obtain ⟨m, -, rfl⟩ := requestWrite_some h; simp
theorem State.requestWrite_isu {w : Write} {s' : State} (h : s.requestWrite w = some s') :
    s'.isu = s.isu := by
  obtain ⟨m, -, rfl⟩ := requestWrite_some h; simp
theorem State.requestWrite_une {w : Write} {s' : State} (h : s.requestWrite w = some s') :
    s'.une = s.une := by
  obtain ⟨m, -, rfl⟩ := requestWrite_some h; simp
theorem State.requestWrite_ptu {w : Write} {s' : State} (h : s.requestWrite w = some s') :
    s'.ptu = s.ptu := by
  obtain ⟨m, -, rfl⟩ := requestWrite_some h; simp
theorem State.requestWrite_efu {w : Write} {s' : State} (h : s.requestWrite w = some s') :
    s'.efu = s.efu := by
  obtain ⟨m, -, rfl⟩ := requestWrite_some h; simp
theorem State.requestWrite_rgu {w : Write} {s' : State} (h : s.requestWrite w = some s') :
    s'.rgu = s.rgu := by
  obtain ⟨m, -, rfl⟩ := requestWrite_some h; simp
theorem State.requestWrite_omu {w : Write} {s' : State} (h : s.requestWrite w = some s') :
    s'.omu = s.omu := by
  obtain ⟨m, -, rfl⟩ := requestWrite_some h; simp
theorem State.requestWrite_fiu {w : Write} {s' : State} (h : s.requestWrite w = some s') :
    s'.fiu = s.fiu := by
  obtain ⟨m, -, rfl⟩ := requestWrite_some h; simp
theorem State.requestWrite_stopped {w : Write} {s' : State} (h : s.requestWrite w = some s') :
    s'.stopped = s.stopped := by
  obtain ⟨m, -, rfl⟩ := requestWrite_some h; simp
theorem State.requestWrite_free {w : Write} {s' : State} (h : s.requestWrite w = some s') :
    s'.free = s.free := by
  obtain ⟨m, -, rfl⟩ := requestWrite_some h; simp
theorem State.requestWrite_pending {w : Write} {s' : State} (h : s.requestWrite w = some s') :
    s'.pending = s.pending := by
  obtain ⟨m, -, rfl⟩ := requestWrite_some h; simp
theorem State.requestWrite_inbound {w : Write} {s' : State} (h : s.requestWrite w = some s') :
    s'.inbound = s.inbound := by
  obtain ⟨m, -, rfl⟩ := requestWrite_some h; simp

@[simp] theorem State.capture_tick (memory : Nat) : ((s.capture memory).2).tick = s.tick := by
  unfold State.capture
  dsimp only
  split
  · simp
  · split
    · simp
    · next h => simpa using s.requestWrite_tick h
@[simp] theorem State.capture_settings (memory : Nat) : ((s.capture memory).2).settings = s.settings := by
  unfold State.capture
  dsimp only
  split
  · simp
  · split
    · simp
    · next h => simpa using s.requestWrite_settings h
@[simp] theorem State.capture_isu (memory : Nat) : ((s.capture memory).2).isu = s.isu := by
  unfold State.capture
  dsimp only
  split
  · simp
  · split
    · simp
    · next h => simpa using s.requestWrite_isu h
@[simp] theorem State.capture_une (memory : Nat) : ((s.capture memory).2).une = s.une := by
  unfold State.capture
  dsimp only
  split
  · simp
  · split
    · simp
    · next h => simpa using s.requestWrite_une h
@[simp] theorem State.capture_ptu (memory : Nat) : ((s.capture memory).2).ptu = s.ptu := by
  unfold State.capture
  dsimp only
  split
  · simp
  · split
    · simp
    · next h => simpa using s.requestWrite_ptu h
@[simp] theorem State.capture_efu (memory : Nat) : ((s.capture memory).2).efu = s.efu := by
  unfold State.capture
  dsimp only
  split
  · simp
  · split
    · simp
    · next h => simpa using s.requestWrite_efu h
@[simp] theorem State.capture_rgu (memory : Nat) : ((s.capture memory).2).rgu = s.rgu := by
  unfold State.capture
  dsimp only
  split
  · simp
  · split
    · simp
    · next h => simpa using s.requestWrite_rgu h
@[simp] theorem State.capture_omu (memory : Nat) : ((s.capture memory).2).omu = s.omu := by
  unfold State.capture
  dsimp only
  split
  · simp
  · split
    · simp
    · next h => simpa using s.requestWrite_omu h
@[simp] theorem State.capture_fiu (memory : Nat) : ((s.capture memory).2).fiu = s.fiu := by
  unfold State.capture
  dsimp only
  split
  · simp
  · split
    · simp
    · next h => simpa using s.requestWrite_fiu h
@[simp] theorem State.capture_stopped (memory : Nat) : ((s.capture memory).2).stopped = s.stopped := by
  unfold State.capture
  dsimp only
  split
  · simp
  · split
    · simp
    · next h => simpa using s.requestWrite_stopped h
@[simp] theorem State.capture_free (memory : Nat) : ((s.capture memory).2).free = s.free := by
  unfold State.capture
  dsimp only
  split
  · simp
  · split
    · simp
    · next h => simpa using s.requestWrite_free h
@[simp] theorem State.capture_pending (memory : Nat) : ((s.capture memory).2).pending = s.pending := by
  unfold State.capture
  dsimp only
  split
  · simp
  · split
    · simp
    · next h => simpa using s.requestWrite_pending h
@[simp] theorem State.capture_inbound (memory : Nat) : ((s.capture memory).2).inbound = s.inbound := by
  unfold State.capture
  dsimp only
  split
  · simp
  · split
    · simp
    · next h => simpa using s.requestWrite_inbound h

@[simp] theorem State.applyRecord_tick (memory : Nat) (image : List Byte) : (s.applyRecord memory image).tick = s.tick := by
  simp [State.applyRecord]
@[simp] theorem State.applyRecord_settings (memory : Nat) (image : List Byte) : (s.applyRecord memory image).settings = s.settings := by
  simp [State.applyRecord]
@[simp] theorem State.applyRecord_isu (memory : Nat) (image : List Byte) : (s.applyRecord memory image).isu = s.isu := by
  simp [State.applyRecord]
@[simp] theorem State.applyRecord_stopped (memory : Nat) (image : List Byte) : (s.applyRecord memory image).stopped = s.stopped := by
  simp [State.applyRecord]
@[simp] theorem State.applyRecord_free (memory : Nat) (image : List Byte) : (s.applyRecord memory image).free = s.free := by
  simp [State.applyRecord]
@[simp] theorem State.applyRecord_pending (memory : Nat) (image : List Byte) : (s.applyRecord memory image).pending = s.pending := by
  simp [State.applyRecord]
@[simp] theorem State.applyRecord_inbound (memory : Nat) (image : List Byte) : (s.applyRecord memory image).inbound = s.inbound := by
  simp [State.applyRecord]
@[simp] theorem State.applyRecord_msu (memory : Nat) (image : List Byte) : (s.applyRecord memory image).msu = s.msu := by
  simp [State.applyRecord]

@[simp] theorem State.recall_tick (memory : Nat) : ((s.recall memory).2).tick = s.tick := by
  unfold State.recall; dsimp only; split <;> simp
@[simp] theorem State.recall_settings (memory : Nat) : ((s.recall memory).2).settings = s.settings := by
  unfold State.recall; dsimp only; split <;> simp
@[simp] theorem State.recall_isu (memory : Nat) : ((s.recall memory).2).isu = s.isu := by
  unfold State.recall; dsimp only; split <;> simp
@[simp] theorem State.recall_stopped (memory : Nat) : ((s.recall memory).2).stopped = s.stopped := by
  unfold State.recall; dsimp only; split <;> simp
@[simp] theorem State.recall_free (memory : Nat) : ((s.recall memory).2).free = s.free := by
  unfold State.recall; dsimp only; split <;> simp
@[simp] theorem State.recall_pending (memory : Nat) : ((s.recall memory).2).pending = s.pending := by
  unfold State.recall; dsimp only; split <;> simp
@[simp] theorem State.recall_inbound (memory : Nat) : ((s.recall memory).2).inbound = s.inbound := by
  unfold State.recall; dsimp only; split <;> simp

@[simp] theorem State.cancel_tick (division : Option Nat) : (s.cancel division).tick = s.tick := by simp [State.cancel]
@[simp] theorem State.cancel_settings (division : Option Nat) : (s.cancel division).settings = s.settings := by simp [State.cancel]
@[simp] theorem State.cancel_isu (division : Option Nat) : (s.cancel division).isu = s.isu := by simp [State.cancel]
@[simp] theorem State.cancel_stopped (division : Option Nat) : (s.cancel division).stopped = s.stopped := by simp [State.cancel]
@[simp] theorem State.cancel_free (division : Option Nat) : (s.cancel division).free = s.free := by simp [State.cancel]
@[simp] theorem State.cancel_pending (division : Option Nat) : (s.cancel division).pending = s.pending := by simp [State.cancel]
@[simp] theorem State.cancel_inbound (division : Option Nat) : (s.cancel division).inbound = s.inbound := by simp [State.cancel]
@[simp] theorem State.cancel_msu (division : Option Nat) : (s.cancel division).msu = s.msu := by simp [State.cancel]

@[simp] theorem State.memoryPiston_tick (memory : Nat) : (s.memoryPiston memory).tick = s.tick := by
  unfold State.memoryPiston; split <;> simp
@[simp] theorem State.memoryPiston_settings (memory : Nat) : (s.memoryPiston memory).settings = s.settings := by
  unfold State.memoryPiston; split <;> simp
@[simp] theorem State.memoryPiston_isu (memory : Nat) : (s.memoryPiston memory).isu = s.isu := by
  unfold State.memoryPiston; split <;> simp
@[simp] theorem State.memoryPiston_stopped (memory : Nat) : (s.memoryPiston memory).stopped = s.stopped := by
  unfold State.memoryPiston; split <;> simp
@[simp] theorem State.memoryPiston_free (memory : Nat) : (s.memoryPiston memory).free = s.free := by
  unfold State.memoryPiston; split <;> simp
@[simp] theorem State.memoryPiston_pending (memory : Nat) : (s.memoryPiston memory).pending = s.pending := by
  unfold State.memoryPiston; split <;> simp
@[simp] theorem State.memoryPiston_inbound (memory : Nat) : (s.memoryPiston memory).inbound = s.inbound := by
  unfold State.memoryPiston; split <;> simp

@[simp] theorem State.sequencer_tick (next : Bool) : (s.sequencer next).tick = s.tick := by
  unfold State.sequencer; split <;> [rfl; split <;> simp]
@[simp] theorem State.sequencer_settings (next : Bool) : (s.sequencer next).settings = s.settings := by
  unfold State.sequencer; split <;> [rfl; split <;> simp]
@[simp] theorem State.sequencer_isu (next : Bool) : (s.sequencer next).isu = s.isu := by
  unfold State.sequencer; split <;> [rfl; split <;> simp]
@[simp] theorem State.sequencer_stopped (next : Bool) : (s.sequencer next).stopped = s.stopped := by
  unfold State.sequencer; split <;> [rfl; split <;> simp]
@[simp] theorem State.sequencer_free (next : Bool) : (s.sequencer next).free = s.free := by
  unfold State.sequencer; split <;> [rfl; split <;> simp]
@[simp] theorem State.sequencer_pending (next : Bool) : (s.sequencer next).pending = s.pending := by
  unfold State.sequencer; split <;> [rfl; split <;> simp]
@[simp] theorem State.sequencer_inbound (next : Bool) : (s.sequencer next).inbound = s.inbound := by
  unfold State.sequencer; split <;> [rfl; split <;> simp]

@[simp] theorem State.pistonAct_tick (fn : PistonFn) : (s.pistonAct fn).tick = s.tick := by
  cases fn <;> simp [State.pistonAct]
@[simp] theorem State.pistonAct_settings (fn : PistonFn) : (s.pistonAct fn).settings = s.settings := by
  cases fn <;> simp [State.pistonAct]
@[simp] theorem State.pistonAct_isu (fn : PistonFn) : (s.pistonAct fn).isu = s.isu := by
  cases fn <;> simp [State.pistonAct]
@[simp] theorem State.pistonAct_stopped (fn : PistonFn) : (s.pistonAct fn).stopped = s.stopped := by
  cases fn <;> simp [State.pistonAct]
@[simp] theorem State.pistonAct_free (fn : PistonFn) : (s.pistonAct fn).free = s.free := by
  cases fn <;> simp [State.pistonAct]
@[simp] theorem State.pistonAct_pending (fn : PistonFn) : (s.pistonAct fn).pending = s.pending := by
  cases fn <;> simp [State.pistonAct]
@[simp] theorem State.pistonAct_inbound (fn : PistonFn) : (s.pistonAct fn).inbound = s.inbound := by
  cases fn <;> simp [State.pistonAct]

@[simp] theorem State.pistonEvent_tick (p : Nat) (press : Bool) : (s.pistonEvent p press).tick = s.tick := by
  unfold State.pistonEvent; dsimp only; split <;> simp
@[simp] theorem State.pistonEvent_settings (p : Nat) (press : Bool) : (s.pistonEvent p press).settings = s.settings := by
  unfold State.pistonEvent; dsimp only; split <;> simp
@[simp] theorem State.pistonEvent_isu (p : Nat) (press : Bool) : (s.pistonEvent p press).isu = s.isu := by
  unfold State.pistonEvent; dsimp only; split <;> simp
@[simp] theorem State.pistonEvent_stopped (p : Nat) (press : Bool) : (s.pistonEvent p press).stopped = s.stopped := by
  unfold State.pistonEvent; dsimp only; split <;> simp
@[simp] theorem State.pistonEvent_free (p : Nat) (press : Bool) : (s.pistonEvent p press).free = s.free := by
  unfold State.pistonEvent; dsimp only; split <;> simp
@[simp] theorem State.pistonEvent_pending (p : Nat) (press : Bool) : (s.pistonEvent p press).pending = s.pending := by
  unfold State.pistonEvent; dsimp only; split <;> simp
@[simp] theorem State.pistonEvent_inbound (p : Nat) (press : Bool) : (s.pistonEvent p press).inbound = s.inbound := by
  unfold State.pistonEvent; dsimp only; split <;> simp

/-! ## ISU -/

@[simp] theorem State.isuEvent_tick (e : IsuEvent) : (s.isuEvent e).tick = s.tick := by
  cases e <;> simp [State.isuEvent]
@[simp] theorem State.isuEvent_settings (e : IsuEvent) : (s.isuEvent e).settings = s.settings := by
  cases e <;> simp [State.isuEvent]
@[simp] theorem State.isuEvent_isu (e : IsuEvent) : (s.isuEvent e).isu = s.isu := by
  cases e <;> simp [State.isuEvent]
@[simp] theorem State.isuEvent_stopped (e : IsuEvent) : (s.isuEvent e).stopped = s.stopped := by
  cases e <;> simp [State.isuEvent]
@[simp] theorem State.isuEvent_free (e : IsuEvent) : (s.isuEvent e).free = s.free := by
  cases e <;> simp [State.isuEvent]
@[simp] theorem State.isuEvent_pending (e : IsuEvent) : (s.isuEvent e).pending = s.pending := by
  cases e <;> simp [State.isuEvent]
@[simp] theorem State.isuEvent_inbound (e : IsuEvent) : (s.isuEvent e).inbound = s.inbound := by
  cases e <;> simp [State.isuEvent]

@[simp] theorem State.isuEvents_tick (es : List IsuEvent) : (s.isuEvents es).tick = s.tick := by
  unfold State.isuEvents; apply foldl_frame State.tick; intros; simp
@[simp] theorem State.isuEvents_settings (es : List IsuEvent) : (s.isuEvents es).settings = s.settings := by
  unfold State.isuEvents; apply foldl_frame State.settings; intros; simp
@[simp] theorem State.isuEvents_isu (es : List IsuEvent) : (s.isuEvents es).isu = s.isu := by
  unfold State.isuEvents; apply foldl_frame State.isu; intros; simp
@[simp] theorem State.isuEvents_stopped (es : List IsuEvent) : (s.isuEvents es).stopped = s.stopped := by
  unfold State.isuEvents; apply foldl_frame State.stopped; intros; simp
@[simp] theorem State.isuEvents_free (es : List IsuEvent) : (s.isuEvents es).free = s.free := by
  unfold State.isuEvents; apply foldl_frame State.free; intros; simp
@[simp] theorem State.isuEvents_pending (es : List IsuEvent) : (s.isuEvents es).pending = s.pending := by
  unfold State.isuEvents; apply foldl_frame State.pending; intros; simp
@[simp] theorem State.isuEvents_inbound (es : List IsuEvent) : (s.isuEvents es).inbound = s.inbound := by
  unfold State.isuEvents; apply foldl_frame State.inbound; intros; simp

@[simp] theorem State.isuDo_tick (f : Isu → Isu × List IsuEvent) : (s.isuDo f).tick = s.tick := by simp [State.isuDo]
@[simp] theorem State.isuDo_settings (f : Isu → Isu × List IsuEvent) : (s.isuDo f).settings = s.settings := by simp [State.isuDo]
@[simp] theorem State.isuDo_stopped (f : Isu → Isu × List IsuEvent) : (s.isuDo f).stopped = s.stopped := by simp [State.isuDo]
@[simp] theorem State.isuDo_free (f : Isu → Isu × List IsuEvent) : (s.isuDo f).free = s.free := by simp [State.isuDo]
@[simp] theorem State.isuDo_pending (f : Isu → Isu × List IsuEvent) : (s.isuDo f).pending = s.pending := by simp [State.isuDo]
@[simp] theorem State.isuDo_inbound (f : Isu → Isu × List IsuEvent) : (s.isuDo f).inbound = s.inbound := by simp [State.isuDo]

@[simp] theorem State.isuDo_isu (f : Isu → Isu × List IsuEvent) : (s.isuDo f).isu = (f s.isu).1 := by
  simp [State.isuDo]

/-! ## The return line -/

@[simp] theorem State.placeReply_tick
    (panel id : Byte) (ordered : Bool) (result : Result) (data : List Byte) : (s.placeReply panel id ordered result data).tick = s.tick := rfl
@[simp] theorem State.placeReply_settings
    (panel id : Byte) (ordered : Bool) (result : Result) (data : List Byte) : (s.placeReply panel id ordered result data).settings = s.settings := rfl
@[simp] theorem State.placeReply_isu
    (panel id : Byte) (ordered : Bool) (result : Result) (data : List Byte) : (s.placeReply panel id ordered result data).isu = s.isu := rfl
@[simp] theorem State.placeReply_une
    (panel id : Byte) (ordered : Bool) (result : Result) (data : List Byte) : (s.placeReply panel id ordered result data).une = s.une := rfl
@[simp] theorem State.placeReply_ptu
    (panel id : Byte) (ordered : Bool) (result : Result) (data : List Byte) : (s.placeReply panel id ordered result data).ptu = s.ptu := rfl
@[simp] theorem State.placeReply_efu
    (panel id : Byte) (ordered : Bool) (result : Result) (data : List Byte) : (s.placeReply panel id ordered result data).efu = s.efu := rfl
@[simp] theorem State.placeReply_rgu
    (panel id : Byte) (ordered : Bool) (result : Result) (data : List Byte) : (s.placeReply panel id ordered result data).rgu = s.rgu := rfl
@[simp] theorem State.placeReply_msu
    (panel id : Byte) (ordered : Bool) (result : Result) (data : List Byte) : (s.placeReply panel id ordered result data).msu = s.msu := rfl
@[simp] theorem State.placeReply_omu
    (panel id : Byte) (ordered : Bool) (result : Result) (data : List Byte) : (s.placeReply panel id ordered result data).omu = s.omu := rfl
@[simp] theorem State.placeReply_cmu
    (panel id : Byte) (ordered : Bool) (result : Result) (data : List Byte) : (s.placeReply panel id ordered result data).cmu = s.cmu := rfl
@[simp] theorem State.placeReply_stopped
    (panel id : Byte) (ordered : Bool) (result : Result) (data : List Byte) : (s.placeReply panel id ordered result data).stopped = s.stopped := rfl
@[simp] theorem State.placeReply_free
    (panel id : Byte) (ordered : Bool) (result : Result) (data : List Byte) : (s.placeReply panel id ordered result data).free = s.free := rfl
@[simp] theorem State.placeReply_pending
    (panel id : Byte) (ordered : Bool) (result : Result) (data : List Byte) : (s.placeReply panel id ordered result data).pending = s.pending := rfl
@[simp] theorem State.placeReply_inbound
    (panel id : Byte) (ordered : Bool) (result : Result) (data : List Byte) : (s.placeReply panel id ordered result data).inbound = s.inbound := rfl

@[simp] theorem State.frameEnded_tick : (s.frameEnded).tick = s.tick := rfl
@[simp] theorem State.frameEnded_settings : (s.frameEnded).settings = s.settings := rfl
@[simp] theorem State.frameEnded_isu : (s.frameEnded).isu = s.isu := rfl
@[simp] theorem State.frameEnded_une : (s.frameEnded).une = s.une := rfl
@[simp] theorem State.frameEnded_ptu : (s.frameEnded).ptu = s.ptu := rfl
@[simp] theorem State.frameEnded_efu : (s.frameEnded).efu = s.efu := rfl
@[simp] theorem State.frameEnded_rgu : (s.frameEnded).rgu = s.rgu := rfl
@[simp] theorem State.frameEnded_msu : (s.frameEnded).msu = s.msu := rfl
@[simp] theorem State.frameEnded_omu : (s.frameEnded).omu = s.omu := rfl
@[simp] theorem State.frameEnded_cmu : (s.frameEnded).cmu = s.cmu := rfl
@[simp] theorem State.frameEnded_stopped : (s.frameEnded).stopped = s.stopped := rfl
@[simp] theorem State.frameEnded_free : (s.frameEnded).free = s.free := rfl
@[simp] theorem State.frameEnded_pending : (s.frameEnded).pending = s.pending := rfl
@[simp] theorem State.frameEnded_inbound : (s.frameEnded).inbound = s.inbound := rfl

@[simp] theorem State.sendTabDrive_tick : (s.sendTabDrive).tick = s.tick := by
  unfold State.sendTabDrive; split <;> rfl
@[simp] theorem State.sendTabDrive_settings : (s.sendTabDrive).settings = s.settings := by
  unfold State.sendTabDrive; split <;> rfl
@[simp] theorem State.sendTabDrive_isu : (s.sendTabDrive).isu = s.isu := by
  unfold State.sendTabDrive; split <;> rfl
@[simp] theorem State.sendTabDrive_une : (s.sendTabDrive).une = s.une := by
  unfold State.sendTabDrive; split <;> rfl
@[simp] theorem State.sendTabDrive_ptu : (s.sendTabDrive).ptu = s.ptu := by
  unfold State.sendTabDrive; split <;> rfl
@[simp] theorem State.sendTabDrive_efu : (s.sendTabDrive).efu = s.efu := by
  unfold State.sendTabDrive; split <;> rfl
@[simp] theorem State.sendTabDrive_msu : (s.sendTabDrive).msu = s.msu := by
  unfold State.sendTabDrive; split <;> rfl
@[simp] theorem State.sendTabDrive_omu : (s.sendTabDrive).omu = s.omu := by
  unfold State.sendTabDrive; split <;> rfl
@[simp] theorem State.sendTabDrive_cmu : (s.sendTabDrive).cmu = s.cmu := by
  unfold State.sendTabDrive; split <;> rfl
@[simp] theorem State.sendTabDrive_stopped : (s.sendTabDrive).stopped = s.stopped := by
  unfold State.sendTabDrive; split <;> rfl
@[simp] theorem State.sendTabDrive_free : (s.sendTabDrive).free = s.free := by
  unfold State.sendTabDrive; split <;> rfl
@[simp] theorem State.sendTabDrive_pending : (s.sendTabDrive).pending = s.pending := by
  unfold State.sendTabDrive; split <;> rfl
@[simp] theorem State.sendTabDrive_inbound : (s.sendTabDrive).inbound = s.inbound := by
  unfold State.sendTabDrive; split <;> rfl

@[simp] theorem State.arbitrate_tick : (s.arbitrate).tick = s.tick := by
  unfold State.arbitrate
  split <;> [(split <;> [rfl; (split <;> [simp; (split <;> simp)])]); rfl; rfl; rfl]
@[simp] theorem State.arbitrate_settings : (s.arbitrate).settings = s.settings := by
  unfold State.arbitrate
  split <;> [(split <;> [rfl; (split <;> [simp; (split <;> simp)])]); rfl; rfl; rfl]
@[simp] theorem State.arbitrate_isu : (s.arbitrate).isu = s.isu := by
  unfold State.arbitrate
  split <;> [(split <;> [rfl; (split <;> [simp; (split <;> simp)])]); rfl; rfl; rfl]
@[simp] theorem State.arbitrate_une : (s.arbitrate).une = s.une := by
  unfold State.arbitrate
  split <;> [(split <;> [rfl; (split <;> [simp; (split <;> simp)])]); rfl; rfl; rfl]
@[simp] theorem State.arbitrate_ptu : (s.arbitrate).ptu = s.ptu := by
  unfold State.arbitrate
  split <;> [(split <;> [rfl; (split <;> [simp; (split <;> simp)])]); rfl; rfl; rfl]
@[simp] theorem State.arbitrate_efu : (s.arbitrate).efu = s.efu := by
  unfold State.arbitrate
  split <;> [(split <;> [rfl; (split <;> [simp; (split <;> simp)])]); rfl; rfl; rfl]
@[simp] theorem State.arbitrate_msu : (s.arbitrate).msu = s.msu := by
  unfold State.arbitrate
  split <;> [(split <;> [rfl; (split <;> [simp; (split <;> simp)])]); rfl; rfl; rfl]
@[simp] theorem State.arbitrate_omu : (s.arbitrate).omu = s.omu := by
  unfold State.arbitrate
  split <;> [(split <;> [rfl; (split <;> [simp; (split <;> simp)])]); rfl; rfl; rfl]
@[simp] theorem State.arbitrate_cmu : (s.arbitrate).cmu = s.cmu := by
  unfold State.arbitrate
  split <;> [(split <;> [rfl; (split <;> [simp; (split <;> simp)])]); rfl; rfl; rfl]
@[simp] theorem State.arbitrate_stopped : (s.arbitrate).stopped = s.stopped := by
  unfold State.arbitrate
  split <;> [(split <;> [rfl; (split <;> [simp; (split <;> simp)])]); rfl; rfl; rfl]
@[simp] theorem State.arbitrate_free : (s.arbitrate).free = s.free := by
  unfold State.arbitrate
  split <;> [(split <;> [rfl; (split <;> [simp; (split <;> simp)])]); rfl; rfl; rfl]
@[simp] theorem State.arbitrate_pending : (s.arbitrate).pending = s.pending := by
  unfold State.arbitrate
  split <;> [(split <;> [rfl; (split <;> [simp; (split <;> simp)])]); rfl; rfl; rfl]
@[simp] theorem State.arbitrate_inbound : (s.arbitrate).inbound = s.inbound := by
  unfold State.arbitrate
  split <;> [(split <;> [rfl; (split <;> [simp; (split <;> simp)])]); rfl; rfl; rfl]

end Sys2Proof.Machine
end

