-- ==== Sys2Proof/Laws/Contributions.lean ====
section
/-! SUPPORT. Begins, ends and windows as the statements speak of them: what they leave alone, and how the
UNE's work falls into the work on one stop after another. -/

namespace Sys2Proof.Machine

variable (s : State)

/-! ## Targets -/

/-- What a pair plays is what the UNE finds for it. -/
theorem State.plays_eq (e : StopEntry) (k : Nat) : s.plays e k = s.une.target s.ptu e k := by
  unfold State.plays Une.target
  cases e.kind with
  | rank => cases s.une.rank e.target <;> rfl
  | percussion => cases (s.ptu.unit e.target).entry <;> rfl
  | trap => cases (s.ptu.trap e.target).entry <;> rfl
  | tremulant => rfl

/-! ## The UNE's work, part by part -/

/-- A message of the UNE neither reads nor writes the UNE. -/
theorem State.uneMsg_withUne (u : Une) (m : UneMsg) :
    (s.withUne u).uneMsg m = (s.uneMsg m).withUne u := by cases m <;> rfl

theorem State.uneMsgs_withUne (u : Une) (ms : List UneMsg) :
    (s.withUne u).uneMsgs ms = (s.uneMsgs ms).withUne u := by
  induction ms generalizing s with
  | nil => rfl
  | cons m ms ih => exact (congrArg (State.uneMsgs ms) (s.uneMsg_withUne u m)).trans (ih (s.uneMsg m))

theorem State.uneMsgs_append (ms ms' : List UneMsg) :
    s.uneMsgs (ms ++ ms') = (s.uneMsgs ms).uneMsgs ms' := List.foldl_append ..

/-- Work that reads no table of another unit, in two parts. -/
theorem State.uneDo_andThen (f g : Une → Une × List UneMsg) :
    s.uneDo (fun _ _ => andThen f g) = (s.uneDo fun _ _ => f).uneDo fun _ _ => g := by
  simp only [State.uneDo, andThen, uneMsgs_withUne, uneMsgs_append]
  rfl

/-- The same over a list of items. -/
theorem State.uneDo_visit {ι : Type} (items : List ι) (f : ι → Une → Une × List UneMsg) :
    s.uneDo (fun _ _ => visit items f) = items.foldl (fun t i => t.uneDo fun _ _ => f i) s := by
  induction items generalizing s with
  | nil => rfl
  | cons i is ih => exact (s.uneDo_andThen (f i) (visit is f)).trans (ih _)

/-! ## Begins and ends -/

@[simp] theorem State.begun_none : s.begun none = s := rfl
@[simp] theorem State.ended_none : s.ended none = s := rfl

@[simp] theorem State.begun_une (tg : Option Target) :
    (s.begun tg).une = (Une.passOn true tg s.une).1 := by simp [State.begun]
@[simp] theorem State.ended_une (tg : Option Target) :
    (s.ended tg).une = (Une.passOn false tg s.une).1 := by simp [State.ended]

@[simp] theorem State.begun_tick (tg : Option Target) : (s.begun tg).tick = s.tick := by
  simp [State.begun]
@[simp] theorem State.begun_settings (tg : Option Target) : (s.begun tg).settings = s.settings := by
  simp [State.begun]
@[simp] theorem State.begun_isu (tg : Option Target) : (s.begun tg).isu = s.isu := by
  simp [State.begun]
@[simp] theorem State.begun_rgu (tg : Option Target) : (s.begun tg).rgu = s.rgu := by
  simp [State.begun]
@[simp] theorem State.begun_msu (tg : Option Target) : (s.begun tg).msu = s.msu := by
  simp [State.begun]
@[simp] theorem State.begun_fiu (tg : Option Target) : (s.begun tg).fiu = s.fiu := by
  simp [State.begun]
@[simp] theorem State.begun_cmu (tg : Option Target) : (s.begun tg).cmu = s.cmu := by
  simp [State.begun]
@[simp] theorem State.begun_stopped (tg : Option Target) : (s.begun tg).stopped = s.stopped := by
  simp [State.begun]
@[simp] theorem State.begun_free (tg : Option Target) : (s.begun tg).free = s.free := by
  simp [State.begun]
@[simp] theorem State.begun_pending (tg : Option Target) : (s.begun tg).pending = s.pending := by
  simp [State.begun]
@[simp] theorem State.begun_inbound (tg : Option Target) : (s.begun tg).inbound = s.inbound := by
  simp [State.begun]
@[simp] theorem State.ended_tick (tg : Option Target) : (s.ended tg).tick = s.tick := by
  simp [State.ended]
@[simp] theorem State.ended_settings (tg : Option Target) : (s.ended tg).settings = s.settings := by
  simp [State.ended]
@[simp] theorem State.ended_isu (tg : Option Target) : (s.ended tg).isu = s.isu := by
  simp [State.ended]
@[simp] theorem State.ended_rgu (tg : Option Target) : (s.ended tg).rgu = s.rgu := by
  simp [State.ended]
@[simp] theorem State.ended_msu (tg : Option Target) : (s.ended tg).msu = s.msu := by
  simp [State.ended]
@[simp] theorem State.ended_fiu (tg : Option Target) : (s.ended tg).fiu = s.fiu := by
  simp [State.ended]
@[simp] theorem State.ended_cmu (tg : Option Target) : (s.ended tg).cmu = s.cmu := by
  simp [State.ended]
@[simp] theorem State.ended_stopped (tg : Option Target) : (s.ended tg).stopped = s.stopped := by
  simp [State.ended]
@[simp] theorem State.ended_free (tg : Option Target) : (s.ended tg).free = s.free := by
  simp [State.ended]
@[simp] theorem State.ended_pending (tg : Option Target) : (s.ended tg).pending = s.pending := by
  simp [State.ended]
@[simp] theorem State.ended_inbound (tg : Option Target) : (s.ended tg).inbound = s.inbound := by
  simp [State.ended]

/-! ## Windows -/

@[simp] theorem State.windowEnded_tick (st k : Nat) : (s.windowEnded st k).tick = s.tick := by
  simp [State.windowEnded]
@[simp] theorem State.windowEnded_settings (st k : Nat) : (s.windowEnded st k).settings = s.settings := by
  simp [State.windowEnded]
@[simp] theorem State.windowEnded_isu (st k : Nat) : (s.windowEnded st k).isu = s.isu := by
  simp [State.windowEnded]
@[simp] theorem State.windowEnded_rgu (st k : Nat) : (s.windowEnded st k).rgu = s.rgu := by
  simp [State.windowEnded]
@[simp] theorem State.windowEnded_msu (st k : Nat) : (s.windowEnded st k).msu = s.msu := by
  simp [State.windowEnded]
@[simp] theorem State.windowEnded_fiu (st k : Nat) : (s.windowEnded st k).fiu = s.fiu := by
  simp [State.windowEnded]
@[simp] theorem State.windowEnded_cmu (st k : Nat) : (s.windowEnded st k).cmu = s.cmu := by
  simp [State.windowEnded]
@[simp] theorem State.windowEnded_stopped (st k : Nat) : (s.windowEnded st k).stopped = s.stopped := by
  simp [State.windowEnded]
@[simp] theorem State.windowEnded_free (st k : Nat) : (s.windowEnded st k).free = s.free := by
  simp [State.windowEnded]
@[simp] theorem State.windowEnded_pending (st k : Nat) : (s.windowEnded st k).pending = s.pending := by
  simp [State.windowEnded]
@[simp] theorem State.windowEnded_inbound (st k : Nat) : (s.windowEnded st k).inbound = s.inbound := by
  simp [State.windowEnded]

end Sys2Proof.Machine
end

