-- ==== Sys2Proof/Laws/Exec.lean ====
section
/-! SUPPORT. What an event and a command come to in a part that is ready, and what the arbiter leaves
alone. Statements about one row start from these and never unfold `event`, `command` or `arbitrate`. -/

namespace Sys2Proof.Machine

/-! ## Events and commands -/

theorem event_running {f : State → State} {s : State} (h : s.stopped = false) :
    event f s = .next (f s).arbitrate := by simp [event, h]

theorem event_stopped {f : State → State} {s : State} (h : s.stopped = true) :
    event f s = .next s := by simp [event, h]

@[simp] theorem frameEnded_eq (s : State) :
    s.frameEnded = { s with fiu := { s.fiu with rx := .hunting } } := rfl

/-- With no fill in progress a frame waits for nothing. -/
theorem finishFill_none {s : State} (h : s.cmu.fill = none) : s.finishFill = s := by
  simp [State.finishFill, h]

/-- A taken command frame that passes R169's common checks is carried out, answered and followed by the
arbiter's choice. -/
theorem taken_ready {panel id : Byte} {ordered lengthOk : Bool} {act : State → Answer} {s : State}
    (h : s.ready) (hl : lengthOk = true) :
    event (State.takeCommand panel id ordered (State.judge lengthOk act)) s =
      .next ((act s.frameEnded).state.replied panel id ordered (act s.frameEnded).result
        (act s.frameEnded).data) := by
  obtain ⟨h0, h1, h2, h3, h4⟩ := h
  simp [event, h0, State.takeCommand, State.handOn, finishFill_none h4, h1, State.judge, hl, h2, h3,
    State.replied, Answer.reply]

theorem command_ready {panel id : Byte} {ordered : Bool} {params : List Byte} {length : Nat}
    {act : State → Answer} {s : State} (h : s.ready) (hl : params.length = length) :
    command panel id ordered params length act s =
      .next ((act s.frameEnded).state.replied panel id ordered (act s.frameEnded).result
        (act s.frameEnded).data) :=
  taken_ready h (by simp [hl])

/-! ## The arbiter's frame -/

/-- The arbiter moves only the return line, the marks of the wait sets and the head of the Tab Drive
Queue. -/
theorem arbitrate_frame (s : State) :
    ∃ line marks queue, s.arbitrate =
      { s with rgu := { s.rgu with tabQueue := queue },
               fiu := { s.fiu with line := line, replies := s.fiu.replies.map marks } } := by
  have keep : ∃ line marks queue, s =
      { s with rgu := { s.rgu with tabQueue := queue },
               fiu := { s.fiu with line := line, replies := s.fiu.replies.map marks } } :=
    ⟨s.fiu.line, id, s.rgu.tabQueue, by simp⟩
  have send : ∃ line marks queue, s.sendTabDrive =
      { s with rgu := { s.rgu with tabQueue := queue },
               fiu := { s.fiu with line := line, replies := s.fiu.replies.map marks } } := by
    unfold State.sendTabDrive
    split
    · exact keep
    · exact ⟨_, Reply.markSent _, _, rfl⟩
  unfold State.arbitrate
  split
  · split
    · exact keep
    · split
      · exact send
      · split
        · exact ⟨_, id, s.rgu.tabQueue, by simp [State.withFiu]; rfl⟩
        · exact send
  · exact keep
  · exact keep
  · exact keep

/-- Once the start afresh is due, no frame starts. -/
theorem arbitrate_due {s : State} (h : s.afreshDue = true) : s.arbitrate = s := by
  unfold State.arbitrate
  split <;> simp [h]

/-- The flags of a status byte read back whatever its open bits hold (assumption 3). -/
theorem statusFlags_getLsbD {free j k : Nat} {flags : List Bool} (h : k < flags.length) :
    (statusFlags free j flags).getLsbD k = (flagByte flags).getLsbD k := by
  simp [statusFlags, h]

@[simp] theorem arbitrate_replies_length (s : State) :
    s.arbitrate.fiu.replies.length = s.fiu.replies.length := by
  obtain ⟨l, m, q, h⟩ := arbitrate_frame s; simp [h]

end Sys2Proof.Machine
end

