-- ==== Sys2Proof/Laws/Memory.lean ====
section
/-! SUPPORT. The nonvolatile array: every operation keeps its canonical form, a read after a write
gives what was written, and a write leaves every other byte alone. -/

namespace Sys2Proof.Machine

open Host

theorem wfFrom_cons {from_ a : Nat} {b : Byte} {rest : List Cell} :
    Memory.wfFrom from_ ((a, b) :: rest) = true ↔
      from_ ≤ a ∧ a < arrayBlocks * blockBytes ∧ b ≠ erasedByte ∧
        Memory.wfFrom (a + 1) rest = true := by
  simp [Memory.wfFrom, and_assoc]

theorem wfFrom_weaken {m : List Cell} {f g : Nat} (hfg : f ≤ g) (h : Memory.wfFrom g m = true) :
    Memory.wfFrom f m = true := by
  cases m with
  | nil => rfl
  | cons c rest =>
    obtain ⟨a, b⟩ := c
    rw [wfFrom_cons] at h ⊢
    exact ⟨hfg.trans h.1, h.2⟩

/-- Below the first address nothing is listed. -/
theorem read_below {m : List Cell} {f x : Nat} (h : Memory.wfFrom f m = true) (hx : x < f) :
    Memory.read m x = erasedByte := by
  cases m with
  | nil => rfl
  | cons c rest =>
    obtain ⟨a, b⟩ := c
    rw [wfFrom_cons] at h
    have h1 : a ≠ x := by omega
    have h2 : x < a := by omega
    simp [Memory.read, h1, h2]

theorem write_wfFrom {m : List Cell} {f x : Nat} {v : Byte} (h : Memory.wfFrom f m = true)
    (hf : f ≤ x) (hx : x < arrayBlocks * blockBytes) :
    Memory.wfFrom f (Memory.write m x v) = true := by
  induction m generalizing f with
  | nil =>
    by_cases hv : v = erasedByte
    · simp [Memory.write, hv, Memory.wfFrom]
    · simp [Memory.write, hv, hf, hx, Memory.wfFrom]
  | cons c rest ih =>
    obtain ⟨a, b⟩ := c
    have hc := wfFrom_cons.mp h
    unfold Memory.write
    by_cases h1 : x < a
    · by_cases hv : v = erasedByte
      · simpa [h1, hv] using h
      · simp only [h1, hv, if_true, if_false]
        rw [wfFrom_cons]
        exact ⟨hf, hx, hv, wfFrom_cons.mpr ⟨h1, hc.2⟩⟩
    · by_cases h2 : x = a
      · subst h2
        by_cases hv : v = erasedByte
        · simpa [hv] using wfFrom_weaken (by omega) hc.2.2.2
        · simp only [hv, if_true, if_false, lt_irrefl]
          rw [wfFrom_cons]
          exact ⟨hf, hx, hv, hc.2.2.2⟩
      · simp only [h1, h2, if_false]
        rw [wfFrom_cons]
        exact ⟨hc.1, hc.2.1, hc.2.2.1, ih hc.2.2.2 (by omega)⟩

/-- A write inside the array keeps the canonical form. -/
theorem write_wf {m : List Cell} {x : Nat} {v : Byte} (h : Memory.wf m = true)
    (hx : x < arrayBlocks * blockBytes) : Memory.wf (Memory.write m x v) = true :=
  write_wfFrom h (Nat.zero_le x) hx

theorem read_write_from {m : List Cell} {f x : Nat} {v : Byte} (h : Memory.wfFrom f m = true)
    (y : Nat) : Memory.read (Memory.write m x v) y = if y = x then v else Memory.read m y := by
  induction m generalizing f with
  | nil =>
    by_cases hv : v = erasedByte
    · simp [Memory.write, hv, Memory.read]
    · by_cases hy : y = x
      · simp [Memory.write, hv, Memory.read, hy]
      · simp [Memory.write, hv, Memory.read, hy, Ne.symm hy]
  | cons c rest ih =>
    obtain ⟨a, b⟩ := c
    have hc := wfFrom_cons.mp h
    have hrest := hc.2.2.2
    unfold Memory.write
    by_cases h1 : x < a
    · have hxa : a ≠ x := by omega
      by_cases hv : v = erasedByte
      · by_cases hy : y = x
        · subst hy
          simp [h1, hv, Memory.read, hxa]
        · simp [h1, hv, hy]
      · by_cases hy : y = x
        · subst hy
          simp [h1, hv, Memory.read]
        · by_cases hyx : y < x
          · have : ¬ a = y := by omega
            have : y < a := by omega
            simp_all [Memory.read, Ne.symm hy]
          · simp [h1, hv, hy, Memory.read, Ne.symm hy, hyx]
    · by_cases h2 : x = a
      · subst h2
        by_cases hv : v = erasedByte
        · simp only [hv, lt_irrefl, if_false, if_true]
          by_cases hy : y = x
          · subst hy
            simp [read_below hrest (Nat.lt_succ_self y)]
          · by_cases hyx : y < x
            · simp [hy, Memory.read, Ne.symm hy, hyx, read_below hrest (by omega : y < x + 1)]
            · simp [hy, Memory.read, Ne.symm hy, hyx]
        · by_cases hy : y = x
          · simp [hv, hy, Memory.read]
          · simp [hv, hy, Memory.read, Ne.symm hy]
      · simp only [h1, h2, if_false, Memory.read]
        by_cases hay : a = y
        · subst hay
          simp [Ne.symm h2]
        · by_cases hya : y < a
          · have : ¬ y = x := by omega
            simp [hay, hya, this]
          · simp only [hay, hya, if_false]
            exact ih hrest

/-- A read after a write: the byte written there, what was there elsewhere. -/
theorem read_write {m : List Cell} (h : Memory.wf m = true) (x y : Nat) (v : Byte) :
    Memory.read (Memory.write m x v) y = if y = x then v else Memory.read m y :=
  read_write_from h y

/-- One byte of a block after some of its bytes are written. -/
theorem writeBytes_spec {m : List Cell} (h : Memory.wf m = true) {block : Nat}
    (hb : block < arrayBlocks) (f : Nat → Byte) (js : List Nat) (hjs : ∀ j ∈ js, j < blockBytes) :
    Memory.wf (js.foldl (fun m j => Memory.write m (block * blockBytes + j) (f j)) m) = true ∧
      ∀ a, Memory.read (js.foldl (fun m j => Memory.write m (block * blockBytes + j) (f j)) m) a =
        if block * blockBytes ≤ a ∧ a - block * blockBytes ∈ js then f (a - block * blockBytes)
        else Memory.read m a := by
  induction js generalizing m with
  | nil => simp [h]
  | cons j js ih =>
    have hj : j < blockBytes := hjs j List.mem_cons_self
    have hlt : block * blockBytes + j < arrayBlocks * blockBytes := by
      simp only [arrayBlocks, blockBytes] at *
      omega
    have hw := write_wf (v := f j) h hlt
    obtain ⟨ih1, ih2⟩ := ih hw (fun k hk => hjs k (List.mem_cons_of_mem j hk))
    refine ⟨ih1, fun a => ?_⟩
    rw [List.foldl_cons, ih2 a, read_write h]
    by_cases ha : a = block * blockBytes + j
    · subst ha
      simp
    · by_cases hle : block * blockBytes ≤ a
      · have hne : a - block * blockBytes ≠ j := by omega
        simp [ha, hle, hne]
      · simp [ha, hle]

/-- A block's write keeps the canonical form. -/
theorem writeBlock_wf {m : List Cell} (h : Memory.wf m = true) {block : Nat}
    (hb : block < arrayBlocks) (f : Nat → Byte) : Memory.wf (writeBlock block f m) = true :=
  (writeBytes_spec h hb f _ (by simp)).1

/-- A block's write sets its bytes and leaves every byte outside it alone. -/
theorem read_writeBlock {m : List Cell} (h : Memory.wf m = true) {block : Nat}
    (hb : block < arrayBlocks) (f : Nat → Byte) (a : Nat) :
    Memory.read (writeBlock block f m) a =
      if block * blockBytes ≤ a ∧ a < block * blockBytes + blockBytes then
        f (a - block * blockBytes)
      else Memory.read m a := by
  rw [writeBlock, (writeBytes_spec h hb f _ (by simp)).2 a]
  congr 1
  simp only [List.mem_range, eq_iff_iff]
  constructor <;> rintro ⟨h1, h2⟩ <;> exact ⟨h1, by omega⟩

/-- The bytes of a block just written. -/
theorem readBlock_writeBlock {m : List Cell} (h : Memory.wf m = true) {block : Nat}
    (hb : block < arrayBlocks) (f : Nat → Byte) :
    readBlock (writeBlock block f m) block = (List.range blockBytes).map f := by
  apply List.map_congr_left
  intro j hj
  have hj' : j < blockBytes := List.mem_range.mp hj
  rw [blockByte, read_writeBlock h hb]
  simp [hj']

theorem eraseBlock_wf {m : List Cell} (h : Memory.wf m = true) {block : Nat}
    (hb : block < arrayBlocks) (flaws : List (Nat × Byte)) :
    Memory.wf (eraseBlock block flaws m) = true := writeBlock_wf h hb _

theorem programBlock_wf {m : List Cell} (h : Memory.wf m = true) {block : Nat}
    (hb : block < arrayBlocks) (image : List Byte) (flaws : List (Nat × Byte)) :
    Memory.wf (programBlock block image flaws m) = true := writeBlock_wf h hb _

end Sys2Proof.Machine
end

