-- ==== Sys2Proof/Laws/Units.lean ====
section
/-! SUPPORT. What the shared operations inside the units do, said once: an element read after one is
replaced, a visit that works on one element at a time, the chamber links, notes and trap channels, demand
counts, contacts and tab drives. -/

namespace Sys2Proof.Machine

/-! ## Visits to one element at a time -/

/-- A visit whose every item works on its own element only: each element visited is taken through `g`
once, and the others stand. -/
theorem visit_each {ι σ μ γ : Type} [DecidableEq ι] (get : σ → ι → γ) (g : ι → γ → γ)
    {f : ι → σ → σ × List μ} {is : List ι} (hnd : is.Nodup)
    (hself : ∀ i ∈ is, ∀ s, get (f i s).1 i = g i (get s i))
    (hother : ∀ i ∈ is, ∀ s j, j ≠ i → get (f i s).1 j = get s j) (s : σ) (j : ι) :
    get (visit is f s).1 j = if j ∈ is then g j (get s j) else get s j := by
  induction is generalizing s with
  | nil => simp
  | cons i is ih =>
    obtain ⟨hi, hnd⟩ := List.nodup_cons.mp hnd
    rw [visit_cons_fst, ih hnd (fun k hk => hself k (List.mem_cons_of_mem i hk))
      (fun k hk => hother k (List.mem_cons_of_mem i hk))]
    by_cases hj : j = i
    · subst hj
      simp [hi, hself j List.mem_cons_self]
    · simp [hj, hother i List.mem_cons_self s j hj]

/-! ## Elements of the units -/

theorem Isu.board_withBoard (i : Isu) (b j : Nat) (x : Board) :
    (i.withBoard b x).board j = if j = b ∧ j < 32 then x else i.board j := nth_put _ _ _ _ _

@[simp] theorem Isu.withBoard_touch (i : Isu) (b : Nat) (x : Board) :
    (i.withBoard b x).touch = i.touch := rfl

@[simp] theorem Isu.withBoard_shoes (i : Isu) (b : Nat) (x : Board) :
    (i.withBoard b x).shoes = i.shoes := rfl

theorem Board.contact_withContact (x : Board) (c j : Nat) (y : Contact) :
    (x.withContact c y).contact j = if j = c ∧ j < 64 then y else x.contact j := nth_put _ _ _ _ _

@[simp] theorem Board.withContact_entry (x : Board) (c : Nat) (y : Contact) :
    (x.withContact c y).entry = x.entry := rfl

@[simp] theorem Board.withContact_state (x : Board) (c : Nat) (y : Contact) :
    (x.withContact c y).state = x.state := rfl

@[simp] theorem Board.withContact_silence (x : Board) (c : Nat) (y : Contact) :
    (x.withContact c y).silence = x.silence := rfl

@[simp] theorem Board.contact_allUp (x : Board) (c : Nat) :
    x.allUp.contact c = { x.contact c with accepted := false, candidate := 0 } :=
  nth_mapV (fun x : Contact => (⟨false, 0, x.suppressed⟩ : Contact)) x.contacts c Contact.rest

@[simp] theorem Board.contact_clearCandidates (x : Board) (c : Nat) :
    x.clearCandidates.contact c = { x.contact c with candidate := 0 } :=
  nth_mapV (fun x : Contact => (⟨x.accepted, 0, x.suppressed⟩ : Contact)) x.contacts c Contact.rest

theorem Une.count_withCount (u : Une) (r i n r' i' : Nat) :
    (u.withCount r i n).count r' i' =
      if r' = r ∧ r' < 32 ∧ i' = i ∧ i' < 97 then n else u.count r' i' := by
  unfold Une.count Une.withCount
  simp only [nth_put]
  by_cases h : r' = r ∧ r' < 32
  · obtain ⟨rfl, h⟩ := h
    simp [h, nth_put]
  · simp only [h, if_false]
    split
    · next h' => exact absurd ⟨h'.1, h'.2.1⟩ h
    · rfl

theorem Une.directFlag_withDirect (u : Une) (r i r' i' : Nat) (v : Bool) :
    (u.withDirect r i v).directFlag r' i' =
      if r' = r ∧ r' < 32 ∧ i' = i ∧ i' < 97 then v else u.directFlag r' i' := by
  unfold Une.directFlag Une.withDirect
  simp only [nth_put]
  by_cases h : r' = r ∧ r' < 32
  · obtain ⟨rfl, h⟩ := h
    simp [h, nth_put]
  · simp only [h, if_false]
    split
    · next h' => exact absurd ⟨h'.1, h'.2.1⟩ h
    · rfl

theorem Une.heldKey_withHeld (u : Une) (d k d' k' : Nat) (t : Touch) :
    (u.withHeld d k t).heldKey d' k' =
      if d' = d ∧ d' < 5 ∧ k' = k ∧ k' < 61 then t else u.heldKey d' k' := by
  unfold Une.heldKey Une.withHeld
  simp only [nth_put]
  by_cases h : d' = d ∧ d' < 5
  · obtain ⟨rfl, h⟩ := h
    simp [h, nth_put]
  · simp only [h, if_false]
    split
    · next h' => exact absurd ⟨h'.1, h'.2.1⟩ h
    · rfl

theorem PercUnit.note_withNote (u : PercUnit) (i j : Nat) (n : Note) :
    (u.withNote i n).note j = if j = i ∧ j < 49 then n else u.note j := nth_put _ _ _ _ _

theorem Rgu.isOn_withStop (r : Rgu) (s j : Nat) (v : Bool) :
    (r.withStop s v).isOn j = if j = s ∧ j < 256 then v else r.isOn j := nth_put _ _ _ _ _

theorem Link.level_withLevel (l : Link) (board point b p : Nat) (v : Bool) :
    (l.withLevel board point v).level b p =
      if b = board ∧ b < 32 ∧ p = point ∧ p < 64 then v else l.level b p := by
  unfold Link.level Link.withLevel Link.levels
  simp only [nth_put]
  by_cases h : b = board ∧ b < 32
  · obtain ⟨rfl, h⟩ := h
    simp [h, nth_put]
  · simp only [h, if_false]
    split
    · next h' => exact absurd ⟨h'.1, h'.2.1⟩ h
    · rfl

/-! ## Work on one unit or channel -/

theorem Ptu.unit_onUnit (p : Ptu) (u j : Nat) (f : PercUnit → PercUnit × List Req) :
    (p.onUnit u f).1.unit j = if j = u ∧ j < 8 then (f (p.unit u)).1 else p.unit j :=
  nth_put _ _ _ _ _

@[simp] theorem Ptu.trap_onUnit (p : Ptu) (u c : Nat) (f : PercUnit → PercUnit × List Req) :
    (p.onUnit u f).1.trap c = p.trap c := rfl

theorem Ptu.trap_onTrap (p : Ptu) (c j : Nat)
    (f : (Chamber → Bool) → TrapChan → TrapChan × List Req) :
    (p.onTrap c f).1.trap j = if j = c ∧ j < 32 then (f p.muted (p.trap c)).1 else p.trap j :=
  nth_put _ _ _ _ _

@[simp] theorem Ptu.unit_onTrap (p : Ptu) (c u : Nat)
    (f : (Chamber → Bool) → TrapChan → TrapChan × List Req) :
    (p.onTrap c f).1.unit u = p.unit u := rfl

@[simp] theorem Ptu.muted_onUnit (p : Ptu) (u : Nat) (f : PercUnit → PercUnit × List Req) :
    (p.onUnit u f).1.muted = p.muted := by funext ch; cases ch <;> rfl

@[simp] theorem Ptu.muted_onTrap (p : Ptu) (c : Nat)
    (f : (Chamber → Bool) → TrapChan → TrapChan × List Req) :
    (p.onTrap c f).1.muted = p.muted := by funext ch; cases ch <;> rfl

/-- Work on a valid unit is work on the unit; on an invalid one it is nothing. -/
theorem Ptu.onValidUnit_valid {p : Ptu} {u : Nat} {e : PercEntry} (h : (p.unit u).entry = .valid e)
    (f : Bool → PercEntry → PercUnit → PercUnit × List Req) :
    p.onValidUnit u f = p.onUnit u (f (p.muted e.chamber) e) := by simp [Ptu.onValidUnit, h]

theorem Ptu.onValidUnit_invalid {p : Ptu} {u : Nat} (h : (p.unit u).entry.entry? = none)
    (f : Bool → PercEntry → PercUnit → PercUnit × List Req) : p.onValidUnit u f = (p, []) := by
  unfold Ptu.onValidUnit
  split
  · rfl
  · next e he => simp [he, Slot.entry?] at h

theorem Efu.trem_onTrem (f : Efu) (t j : Nat) (g : Trem → Trem × List Req) :
    (f.onTrem t g).1.trem j = if j = t ∧ j < 12 then (g (f.trem t)).1 else f.trem j :=
  nth_put _ _ _ _ _

theorem Efu.expr_onExpr (f : Efu) (x j : Nat) (g : Expr → Expr × List Req) :
    (f.onExpr x g).1.expr j = if j = x ∧ j < 2 then (g (f.expr x)).1 else f.expr j :=
  nth_put _ _ _ _ _

/-! ## Percussion units and trap channels -/

/-- The damper's judgement changes the damper's own flag, and sends at most a request for the damper's
output. -/
theorem PercUnit.judgeDamper_spec (e : PercEntry) (u : PercUnit) :
    ∃ on, (u.judgeDamper e).1 = { u with damperOn := on } ∧
      ∀ r ∈ (u.judgeDamper e).2, ∃ o ∈ e.damper, r = .on o ∨ r = .off o := by
  unfold PercUnit.judgeDamper
  split
  · exact ⟨u.damperOn, rfl, by simp⟩
  · next o ho =>
    by_cases h : u.damperWanted e = u.damperOn
    · exact ⟨u.damperOn, by simp [h], by simp [h]⟩
    · refine ⟨u.damperWanted e, by simp [h], ?_⟩
      simp only [h, if_false, List.mem_singleton, forall_eq, ho, Option.mem_def]
      cases hw : u.damperWanted e <;> simp [request]

/-- A strike request by the state of its note (R67). -/
theorem PercUnit.strikeRequest_spec (e : PercEntry) (i : Nat) (u : PercUnit) :
    u.strikeRequest true e i = (u, []) ∧
    ((u.note i).state = .idle → u.striking < e.budget →
      u.strikeRequest false e i =
        ({ u.withNote i { u.note i with state := .striking, timer := 4 * e.pulse } with
            striking := u.striking + 1 }, [.on (e.firstOut + i)])) ∧
    ((u.note i).state = .idle → e.budget ≤ u.striking →
      u.strikeRequest false e i =
        ({ u.withNote i { u.note i with state := .queued } with queue := u.queue ++ [i] }, [])) ∧
    ((u.note i).state = .queued ∨ (u.note i).state = .striking →
      u.strikeRequest false e i = (u, [])) ∧
    ((u.note i).state = .resting →
      u.strikeRequest false e i = (u.withNote i { u.note i with pending := true }, [])) := by
  refine ⟨by simp [PercUnit.strikeRequest, quiet], fun h hb => ?_, fun h hb => ?_, fun h => ?_,
    fun h => ?_⟩
  · simp [PercUnit.strikeRequest, h, hb, PercUnit.startStrike]
  · simp [PercUnit.strikeRequest, h, Nat.not_lt.mpr hb, quiet]
  · rcases h with h | h <;> simp [PercUnit.strikeRequest, h, quiet]
  · simp [PercUnit.strikeRequest, h, quiet]

/-- A flushed unit has an empty Strike Queue, no QUEUED note and no pending flag. -/
theorem PercUnit.note_flush (u : PercUnit) (i : Nat) :
    u.flush.note i = { u.note i with
      state := if (u.note i).state = .queued then .idle else (u.note i).state, pending := false } :=
  nth_mapV (fun n : Note =>
    (⟨if n.state = .queued then .idle else n.state, n.timer, false, n.reiteration⟩ : Note))
    u.notes i Note.rest

@[simp] theorem PercUnit.note_tick (u : PercUnit) (i : Nat) :
    u.tick.note i = { u.note i with timer := (u.note i).timer - 1 } :=
  nth_mapV Note.tick u.notes i Note.rest

/-- The judgement of a valid channel's output sets it to what is wanted, with the request of a
change (R90). -/
theorem TrapChan.judgeOut_spec {c : TrapChan} {e : TrapEntry} (h : c.entry = .valid e)
    (muted : Chamber → Bool) :
    c.judgeOut muted = ({ c with out := c.outWanted muted },
      if c.outWanted muted = c.out then [] else [request (c.outWanted muted) e.output]) := by
  by_cases hw : c.outWanted muted = c.out
  · have hc : { c with out := c.outWanted muted } = c := by rw [hw]
    rw [hc, if_pos hw]
    simp [TrapChan.judgeOut, h, hw, quiet]
  · simp [TrapChan.judgeOut, h, hw]

/-- A strike request on a valid channel of an unmuted chamber, by its state (R89, R93). -/
theorem TrapChan.strike_spec {c : TrapChan} {e : TrapEntry} (h : c.entry = .valid e)
    {muted : Chamber → Bool} (hm : muted e.chamber = false) :
    (c.state = .idle → c.strike muted =
      TrapChan.countBlow e { c with state := .striking, timer := 4 * e.pulse }) ∧
    (c.state = .resting → c.strike muted = { c with pending := true }) ∧
    (c.state = .striking ∨ c.state = .queued → c.strike muted = c) := by
  refine ⟨fun hs => ?_, fun hs => ?_, fun hs => ?_⟩
  · simp [TrapChan.strike, h, hm, hs]
  · simp [TrapChan.strike, h, hm, hs]
  · rcases hs with hs | hs <;> simp [TrapChan.strike, h, hm, hs]

theorem TrapChan.strike_muted {c : TrapChan} {e : TrapEntry} (h : c.entry = .valid e)
    {muted : Chamber → Bool} (hm : muted e.chamber = true) : c.strike muted = c := by
  simp [TrapChan.strike, h, hm]

/-! ## Demand -/

/-- One reason more or fewer for a pipe moves its count alone; the message, if any, is the request of the
pipe's own output (R49). -/
theorem Une.pass_pipe (begins : Bool) (r i : Nat) (u : Une) :
    Une.pass begins (.pipe r i) u =
      (u.withCount r i (if begins then u.count r i + 1 else u.count r i - 1),
        if (if begins then u.count r i = 0 else u.count r i = 1)
          then u.pipeRequest begins r i else []) := by
  cases begins <;> rfl

/-- A pipe's message asks for the output of a valid rank of an unmuted chamber. -/
theorem Une.pipeRequest_mem {on : Bool} {r i : Nat} {u : Une} {m : UneMsg}
    (h : m ∈ u.pipeRequest on r i) :
    ∃ e, u.rank r = .valid e ∧ u.muted e.chamber = false ∧ m = .pipe (request on (e.firstOut + i)) := by
  unfold Une.pipeRequest at h
  split at h
  · simp at h
  · next e he =>
    split at h
    · simp at h
    · next hm => exact ⟨e, he, by simpa using hm, by simpa using h⟩

/-! ## Chamber links -/

/-- The start of a frame moves a board from the queue to the line, or does nothing. -/
theorem Link.startFrame_spec (l : Link) :
    (l.held = false → l.line = none → ∀ b rest, l.queue = b :: rest →
      l.startFrame = { l with queue := rest, line := some ⟨b, l.levels b⟩ }) ∧
    (l.held = true ∨ l.line ≠ none ∨ l.queue = [] → l.startFrame = l) := by
  refine ⟨fun hh hl b rest hq => by simp [Link.startFrame, hh, hl, hq], fun h => ?_⟩
  unfold Link.startFrame
  split
  · rfl
  · next hn =>
    rcases h with h | h | h
    · simp [h] at hn
    · exact absurd (Option.isSome_iff_ne_none.mpr h) (by simp_all)
    · simp [h]

@[simp] theorem Link.startFrame_image (l : Link) : l.startFrame.image = l.image := by
  unfold Link.startFrame; split <;> [rfl; (split <;> rfl)]

@[simp] theorem Link.startFrame_held (l : Link) : l.startFrame.held = l.held := by
  unfold Link.startFrame; split <;> [rfl; (split <;> rfl)]

@[simp] theorem Link.append_image (l : Link) (b : Nat) : (l.append b).image = l.image := by
  unfold Link.append; split <;> simp

@[simp] theorem Link.append_held (l : Link) (b : Nat) : (l.append b).held = l.held := by
  unfold Link.append; split <;> simp

/-- A board in the queue stays where it is; another joins the tail, and on a link with nothing to send its
frame starts at once (R161). -/
theorem Link.append_spec (l : Link) (b : Nat) :
    (b ∈ l.queue → l.append b = l) ∧
    (b ∉ l.queue → l.held = true ∨ l.line ≠ none →
      l.append b = { l with queue := l.queue ++ [b] }) ∧
    (l.held = false → l.line = none → l.queue = [] →
      l.append b = { l with line := some ⟨b, l.levels b⟩ }) := by
  refine ⟨fun h => by simp [Link.append, h], fun h hb => ?_, fun hh hl hq => ?_⟩
  · rw [Link.append, if_neg h]
    exact (Link.startFrame_spec _).2 (hb.elim .inl fun h => .inr (.inl h))
  · simp [Link.append, Link.startFrame, Link.levels, hh, hl, hq]

/-- A point that stands at the level already changes nothing; else the level is written and the board
joins the queue (R160). -/
theorem Link.setLevel_spec (l : Link) (board point : Nat) (v : Bool) :
    (l.level board point = v → l.setLevel board point v = l) ∧
    (l.level board point ≠ v →
      l.setLevel board point v = (l.withLevel board point v).append board) :=
  ⟨fun h => by simp [Link.setLevel, h], fun h => by simp [Link.setLevel, h]⟩

/-! ## Tab drives -/

/-- A drive takes its place among a board's drives: it is there, and the drives of other stops stand. -/
theorem mem_insertDrive (d x : Drive) (ds : List Drive) (h : x.stop ≠ d.stop) :
    x ∈ insertDrive d ds ↔ x ∈ ds := by
  induction ds with
  | nil =>
    simp only [insertDrive, List.mem_singleton, List.not_mem_nil, iff_false]
    rintro rfl
    exact h rfl
  | cons y rest ih =>
    have hx : x ≠ d := by rintro rfl; exact h rfl
    unfold insertDrive
    split
    · simp [hx]
    · split
      · next hy =>
        have hxy : x ≠ y := by rintro rfl; exact h hy.symm
        simp [hx, hxy]
      · simp [ih]

theorem insertDrive_self (d : Drive) (ds : List Drive) : d ∈ insertDrive d ds := by
  induction ds with
  | nil => simp [insertDrive]
  | cons y rest ih =>
    unfold insertDrive
    split
    · simp
    · split
      · simp
      · exact List.mem_cons_of_mem _ ih

/-- A drive joins a queue: it is with its board, and a drive of another stop that was there is still with
its board. -/
theorem joinDrive_self (b : Nat) (d : Drive) (q : List DriveEntry) :
    ∃ e ∈ joinDrive b d q, e.board = b ∧ d ∈ e.drives := by
  induction q with
  | nil => exact ⟨⟨b, [d]⟩, by simp [joinDrive]⟩
  | cons e rest ih =>
    unfold joinDrive
    split
    · next h => exact ⟨_, List.mem_cons_self, h, insertDrive_self d e.drives⟩
    · obtain ⟨e', he', h⟩ := ih
      exact ⟨e', List.mem_cons_of_mem _ he', h⟩

theorem joinDrive_keeps {b : Nat} {d x : Drive} {q : List DriveEntry} {e : DriveEntry} (he : e ∈ q)
    (hx : x ∈ e.drives) (h : x.stop ≠ d.stop) :
    ∃ e' ∈ joinDrive b d q, e'.board = e.board ∧ x ∈ e'.drives := by
  induction q with
  | nil => simp at he
  | cons y rest ih =>
    unfold joinDrive
    rcases List.mem_cons.mp he with rfl | he
    · split
      · exact ⟨_, List.mem_cons_self, rfl, (mem_insertDrive d x e.drives h).mpr hx⟩
      · exact ⟨_, List.mem_cons_self, rfl, hx⟩
    · split
      · exact ⟨e, List.mem_cons_of_mem _ he, rfl, hx⟩
      · obtain ⟨e', he', h'⟩ := ih he
        exact ⟨e', List.mem_cons_of_mem _ he', h'⟩

/-- A tab drive changes the Tab Drive Queue alone, and that only where the stop's tab can be driven and
has no fault mark (R132). -/
theorem Rgu.makeDrive_spec (i : Isu) (s : Nat) (value : Bool) (attempt : Nat) (r : Rgu) :
    (∀ b, i.liveTabBoard s = some b → r.isFaulty s = false →
      r.makeDrive i s value attempt =
        { r with tabQueue := joinDrive b ⟨s, value, attempt⟩ r.tabQueue }) ∧
    (i.liveTabBoard s = none ∨ r.isFaulty s = true → r.makeDrive i s value attempt = r) := by
  refine ⟨fun b h hf => by simp [Rgu.makeDrive, h, hf], fun h => ?_⟩
  unfold Rgu.makeDrive
  split
  · rfl
  · next b hb => simp_all

/-- A stop set to where it stands sends nothing; else its state changes, with its stop event and its
drive (R121). -/
theorem Rgu.setStop_spec (i : Isu) (drives : Bool) (s : Nat) (v : Bool) (r : Rgu) :
    (r.isOn s = v → r.setStop i drives s v = (r, [])) ∧
    (r.isOn s ≠ v → r.setStop i drives s v =
      (if drives then (r.withStop s v).makeDrive i s v 1 else r.withStop s v, [.stop s v])) :=
  ⟨fun h => by simp [Rgu.setStop, h, quiet], fun h => by simp [Rgu.setStop, h]⟩

/-! ## Blocks and entries -/

@[simp] theorem length_padTo (n : Nat) (bs : List Byte) : (padTo n bs).length = n := by simp [padTo]

@[simp] theorem length_maskBytes (mask bs : List Byte) : (maskBytes mask bs).length = mask.length := by
  simp [maskBytes]

@[simp] theorem length_formBlock (marker : Byte) (second third : Nat) (payload : List Byte) :
    (formBlock marker second third payload).length = 64 := by simp [formBlock]

@[simp] theorem drop_formBlock (marker : Byte) (second third : Nat) (payload : List Byte) :
    (formBlock marker second third payload).drop 4 = padTo 60 payload := rfl

/-- R141: the blocks of a table, and of no other, are those from its first block on. -/
theorem tableOfBlock_eq (t : TableId) {n : Nat} (h : n < t.blocks) :
    tableOfBlock (t.firstBlock + n) = some t := by
  revert n
  cases t <;> decide +kernel

/-! ## The Write Queue -/

/-- The start of a write touches the engine and its own marks alone (R144). -/
theorem Msu.startWrite_spec (m : Msu) :
    (m.engine = .idle → m.queue ≠ [] →
      m.startWrite = { m with engine := .erasing, retried := false, pushback := 0 }) ∧
    (m.engine ≠ .idle ∨ m.queue = [] → m.startWrite = m) := by
  refine ⟨fun h hq => by simp [Msu.startWrite, h, hq], fun h => ?_⟩
  unfold Msu.startWrite
  split
  · next hc => rcases h with h | h <;> [exact absurd hc.1 h; exact absurd h hc.2]
  · rfl

/-- With no job running the queue's change brings nothing but the engine's start. -/
theorem Msu.advance_idle {m : Msu} (h : m.job.outcome ≠ .running) (config : Nat → List Byte)
    (locked : Nat → Bool) : m.advance config locked = (m.startWrite, []) := by
  have hp : ∀ n, Msu.pump config locked n m = (m, []) := by
    intro n
    cases n with
    | zero => rfl
    | succ n => simp [Msu.pump, Msu.mayForm, h, quiet]
  have hj : m.startWrite.job = m.job := by unfold Msu.startWrite; split <;> rfl
  simp [Msu.advance, andThen, hp, Msu.settleJob, hj, h, quiet]

end Sys2Proof.Machine
end

