-- ==== Sys2Proof/Tests/Slice0.lean ====
section
/-! SUPPORT. Tests: the well-formedness checks, frames read back from their bytes, one or two small steps
of each family, and for each statement with hypotheses a state and operands that meet them, at the bounds
of each clause. Expected values are worked by hand from the rules named. -/

namespace Sys2Proof.Machine

set_option maxRecDepth 20000
set_option Elab.async false

/-! ## Helpers -/

/-- The outcome is a next state of which `p` holds. -/
def nextIs (o : Host.Outcome State Fault Refusal) (p : State → Bool) : Bool :=
  match o with
  | .next t => p t
  | _ => false

/-- The outcome is the fault `f`. -/
def faultIs (o : Host.Outcome State Fault Refusal) (f : Fault) : Bool :=
  match o with
  | .fault g => g == f
  | _ => false

/-- What the reply on the line holds once a command has been answered on an idle line. -/
def answered (result : Result) (data : List Byte) (t : State) : Bool :=
  match t.fiu.line with
  | .reply r _ => r.result == result && r.data == data
  | _ => false

/-- The part after START DONE with nothing configured. -/
def ready0 : State := { State.reset with cmu := { Cmu.reset with started := true } }

def keysE : BoardEntry := ⟨.keys, 2, .first, 0, 61, 2, 50⟩
def keysLowE : BoardEntry := ⟨.keys, 2, .second, 0, 61, 1, 50⟩
def tabsE : BoardEntry := ⟨.tabs, 0, .first, 192, 64, 1, 50⟩
def studsE : BoardEntry := ⟨.studs, 0, .first, 0, 32, 1, 50⟩
def pistonsE : BoardEntry := ⟨.pistons, 0, .first, 0, 64, 1, 250⟩
def shoesE : BoardEntry := ⟨.shoes, 0, .first, 0, 4, 1, 10⟩

def boardOf (e : BoardEntry) (st : BoardState) (silence : Option Nat) : Board :=
  { Board.reset with entry := .valid e, state := st, silence := silence }

def withBoards (bs : List (Nat × Board)) (s : State) : State :=
  bs.foldl (fun s b => { s with isu := s.isu.withBoard b.1 b.2 }) s

/-- Five live boards, one of each kind, at addresses 0 to 3 and 31. -/
def boards0 : State :=
  withBoards [(0, boardOf keysE .live (some 7)), (1, boardOf tabsE .live (some 50)),
    (2, boardOf studsE .live (some 0)), (3, boardOf pistonsE .live (some 0)),
    (31, boardOf shoesE .live (some 10))] ready0

def rank3 : RankEntry := ⟨24, 97, .solo, 1000⟩
def stop40 : StopEntry := ⟨2, .rank, 3, 0, .first, 0, 60, .none, .sustained⟩
def stop41 : StopEntry := { stop40 with mode := .pizzicato }

/-- Rank 3 (solo, unmuted) with stops 40 and 41 on division 2, key 36 held at first touch. -/
def organ0 : State :=
  { ready0 with une := { Une.reset with
      ranks := put Une.reset.ranks 3 (.valid rank3)
      stops := put (put Une.reset.stops 40 (.valid stop40)) 41 (.valid stop41)
      heldKeys := put Une.reset.heldKeys 2 (put (Vector.replicate 61 .up) 36 .first)
      muteSolo := false, muteMain := false } }

def perc0 : PercEntry := ⟨48, 25, .solo, 500, some 600, .key, 5, 6, 20, 2⟩
def trapHeld : TrapEntry := ⟨.solo, 700, .held, 4, 5, 10, 0⟩
def trapCounted : TrapEntry := ⟨.solo, 701, .counted, 4, 5, 10, 15⟩
def trapRoll : TrapEntry := ⟨.solo, 702, .reiterate, 4, 5, 10, 0⟩

def unit0 : PercUnit := { PercUnit.reset with entry := .valid perc0 }

/-- Notes by index. -/
def notesOf (ns : List (Nat × Note)) : Vector Note 49 :=
  ns.foldl (fun v n => put v n.1 n.2) (Vector.replicate 49 Note.rest)

def withUnit (u : Nat) (x : PercUnit) (s : State) : State :=
  { s with ptu := { s.ptu with units := put s.ptu.units u x } }

def withTrap (c : Nat) (x : TrapChan) (s : State) : State :=
  { s with ptu := { s.ptu with traps := put s.ptu.traps c x } }

/-- `ready0` with both chambers unmuted. -/
def sounding : State :=
  { ready0 with ptu := { Ptu.reset with muteMain := false, muteSolo := false }
                une := { Une.reset with muteMain := false, muteSolo := false } }

def trem0 : TremEntry := ⟨800, 20, 30, .free⟩
def trem1 : TremEntry := ⟨801, 20, 30, .slave 0 2⟩

/-- Tremulant 0 WAITING at the end of an off phase, tremulant 11 a slave of it. -/
def trems0 : State :=
  { ready0 with efu := { Efu.reset with
      trems := put (put Efu.reset.trems 0 ⟨.valid trem0, false, 30, 30, .waiting, 1, false⟩) 11
        ⟨.valid trem1, false, 1, 0, .pulsing, 1, false⟩ } }

def expr0 : ExprEntry := ⟨3, .linear, 16, 900, 7, 2⟩

/-- Expression channel 1 with a step due. -/
def exprs0 : State :=
  { ready0 with efu := { Efu.reset with
      exprs := put Efu.reset.exprs 1 ⟨.valid expr0, 63, 63, 16, 4, some 0⟩
      shoes := put Efu.reset.shoes 3 255 } }

/-- A write in flight. -/
def flight (engine : Engine) (q : List Write) : State :=
  { ready0 with msu := { Msu.reset [] with engine := engine, queue := q } }

def image0 : List Byte := formRecord 0 50 (fun st => st == 40)
def write0 : Write := ⟨50, image0, .capture⟩

/-- SET STOPS data with the given digits. -/
def digits (l : List (Nat × Nat)) : List Byte :=
  (List.range 52).map fun j =>
    toByte (l.foldl (fun a p => if p.1 / 5 = j then a + p.2 * 3 ^ (p.1 % 5) else a) 0)

def reply0 : Reply := ⟨9, 0x40, .done, [], false, []⟩

/-- `s` with `n` replies waiting and the line busy. -/
def withReplies (n : Nat) (s : State) : State :=
  { s with fiu := ⟨.hunting, List.replicate n reply0, .reply reply0 false⟩ }

/-! ## Well-formedness refuses -/

theorem test_wf_board : Instr.wellFormed (.silenceTimerExpiry 32) = false := by decide
theorem test_wf_unit : Instr.wellFormed (.pulseEnd 8 0) = false ∧
    Instr.wellFormed (.reiteratorBeat 8) = false := by decide
theorem test_wf_note : Instr.wellFormed (.restEnd 0 49) = false := by decide
theorem test_wf_channel : Instr.wellFormed (.trapBeat 32) = false ∧
    Instr.wellFormed (.stepEnd 2) = false := by decide
theorem test_wf_tremulant : Instr.wellFormed (.phaseEnd 12) = false := by decide
theorem test_wf_flaw : Instr.wellFormed (.eraseEnd [(64, 0)]) = false ∧
    Instr.wellFormed (.programEnd [(63, 0)]) = true := by decide
theorem test_wf_scan_payload :
    Instr.wellFormed (.scanFrame 0 (List.replicate 65 0)) = false := by decide
theorem test_wf_command_payload :
    Instr.wellFormed (.cancel 0 (List.replicate 64 0)) = false := by decide +kernel
theorem test_wf_row : Instr.wellFormed (.cueHoldOn 0 [0, 0, 0, 0, 2]) = false ∧
    Instr.wellFormed (.cueHoldOff 0 [0, 0, 0, 0, 2]) = true ∧
    Instr.wellFormed (.unknownCommand 0 [0x10]) = false ∧
    Instr.wellFormed (.unknownCommand 0 []) = true := by decide +kernel
theorem test_wf_bad_frame : Instr.wellFormed (.badFrame [1, 0, 65]) = true ∧
    Instr.wellFormed (.badFrame [1, 0, 64]) = false ∧
    Instr.wellFormed (.byteGap [1, 0]) = true ∧ Instr.wellFormed (.byteGap [1, 0, 65]) = false := by
  decide +kernel

/-! ## Frames and codes -/

/-- The published check value of this CRC (start all ones, polynomial 1021H, most significant bit
first) on the digits 1 to 9. -/
theorem test_crc_check_value :
    crc [0x31, 0x32, 0x33, 0x34, 0x35, 0x36, 0x37, 0x38, 0x39] = 0x29B1#16 := by decide +kernel

theorem test_command_rows : commandOf 5 [0x20, 0, 0, 0, 1, 2] = .cueHoldOff 5 [0, 0, 0, 1, 2] ∧
    commandOf 5 [0x21, 1, 3, 50] = .setReiterationTrap 5 [1, 3, 50] ∧
    commandOf 5 [0x43] = .restart 5 [] ∧ commandOf 5 [0x44, 1] = .unknownCommand 5 [0x44, 1] := by
  decide

/-- A long frame is bad at its length byte; a kind that is neither SCAN nor COMMAND is bad at its end. -/
theorem test_frame_bad : receive [0x02, 0, 0x41] = .bad ∧
    receive ([0x81, 0, 0] ++ (frameBytes 0x81 0 []).drop 3) = .bad := by
  constructor <;> simp [receive, frameBytes, crcBytes, wordBytes, toByte, kindScan, kindCommand]

theorem test_frame_read : decodeFrame (frameBytes kindCommand 7 [0x35]) = some (.releaseAll 7 []) ∧
    decodeFrame (frameBytes kindScan 3 [1, 2, 3, 4]) = some (.scanFrame 3 [1, 2, 3, 4]) := by
  constructor <;> simp [decodeFrame, receive, frameBytes, crcBytes, wordBytes, kindScan, kindCommand,
    toByte, commandOf]

theorem test_entries_parse :
    parseBoard [1, 0, 0x82, 5, 10, 2, 10, 0] = some ⟨.keys, 2, .second, 5, 10, 2, 10⟩ ∧
    parseBoard [1, 0, 0, 0, 33, 1, 10, 0] = none ∧ parseBoard [1, 1, 5, 0, 8, 1, 10, 0] = none ∧
    parseBoard [1, 1, 0x84, 0, 8, 1, 10, 0] = some ⟨.tabs, 4, .second, 0, 8, 1, 10⟩ ∧
    parseStop [0x21, 0, 3, 0xF4, 0x31, 1, 0, 60] =
      some ⟨2, .rank, 3, -12, .second, 0, 60, .both, .pizzicato⟩ ∧
    parseRank [1, 31, 97, 0, 0x0F, 0x9F, 0, 0] = some ⟨31, 97, .main, 3999⟩ ∧
    parseRank [1, 32, 97, 0, 0, 0, 0, 0] = none ∧
    parseTrap [1, 1, 0, 9, 0xF3, 2, 60, 10] = some ⟨.solo, 9, .counted, 2, 60, 10, 15⟩ ∧
    parseMap [3, 1, 31, 63] = some ⟨.solo, 31, 63, true⟩ := by decide

theorem test_pitch : pitchIndex stop40 24 97 36 = some 48 ∧
    pitchIndex { stop40 with offset := 36 } 36 61 60 = none ∧
    pitchIndex { stop40 with offset := 36, fold := .down } 36 61 60 = some 60 ∧
    pitchIndex { stop40 with offset := -24, fold := .up } 36 61 0 = some 0 := by decide

theorem test_curves : levelOf .tapered 255 = 63 ∧ levelOf .tapered 1 = 0 ∧
    levelOf .tapered 3 = 12 ∧ targetOf 16 32 = 8 ∧ acceptLevel 3 12 10 = 10 := by decide

/-! ## One small step of each family -/

theorem test_msStep_counts : nextIs (exec .msStep { sounding with tick := 0xFFFFFFFF#32 })
    (fun t => t.tick == 0#32) = true := by decide +kernel

theorem test_key_sounds : nextIs (exec (.setStops 9 (digits [(40, 1)])) organ0)
    (fun t => t.une.count 3 48 == 1 && t.omu.count 1048 == 1 && t.rgu.isOn 40) = true := by
  decide +kernel

theorem test_read_entry : nextIs (exec (.readEntry 9 [2, 0, 3]) organ0)
    (answered .done [2, 0, 3, 1, 24, 97, 1, 0x03, 0xE8, 0, 0]) = true := by decide +kernel

theorem test_load_entry : nextIs (exec (.loadEntry 9 [10, 0x0F, 0xFF, 3, 1, 31, 63]) ready0)
    (fun t => t.omu.entry 4095 == .valid ⟨.solo, 31, 63, true⟩ &&
      t.omu.levelAt (.solo, 31, 63) && answered .done [] t) = true := by decide +kernel

theorem test_unknown : nextIs (exec (.unknownCommand 9 [0x44]) ready0) (answered .unknown []) = true := by
  decide +kernel

theorem test_wrong_length : nextIs (exec (.mute 9 []) ready0) (answered .length []) = true := by
  decide +kernel

theorem test_capture : nextIs (exec (.capture 9 [69]) ready0)
    (fun t => t.msu.queue.map Write.block == [69] && t.msu.engine == .erasing) = true := by
  decide +kernel

theorem test_erase : nextIs (exec (.eraseEnd []) (flight .erasing [write0]))
    (fun t => t.msu.engine == .programming && blockByte t.msu.array 50 0 == 0xFF) = true := by
  decide +kernel

theorem test_program : nextIs (exec (.programEnd []) (flight .programming [write0]))
    (fun t => readBlock t.msu.array 50 == image0) = true := by decide +kernel

theorem test_cue_trigger : nextIs (exec (.cueTrigger 9 [0, 0, 0, 0x80, 0])
      (withTrap 31 { TrapChan.reset with entry := .valid trapCounted } sounding))
    (fun t => (t.ptu.trap 31).state == .striking && (t.ptu.trap 31).remaining == 15 &&
      t.omu.count 701 == 1) = true := by decide +kernel

theorem test_step_end : nextIs (exec (.stepEnd 1) exprs0)
    (fun t => (t.efu.expr 1).current == 5 && (t.efu.expr 1).timer == some 2 &&
      t.omu.count 904 == 1) = true := by decide +kernel

theorem test_phase_end : nextIs (exec (.phaseEnd 0) trems0)
    (fun t => (t.efu.trem 0).out && (t.efu.trem 11).out && t.omu.count 800 == 1) = true := by
  decide +kernel

theorem test_expr_load_on_top :
    (Expr.load (fun _ => 255) (.valid { expr0 with slew := 0 }) Expr.reset).1.current = 16 := by decide

/-! ## The hypotheses of the statements can be met -/

theorem witness_StepTakesFrontCommand :
    { ready0 with pending := [.msStep] }.pending = .msStep :: [] ∧ ready0.pending = [] ∧
    ready0.inbound = [] ∧ ready0.cmu.fill = none ∧
    { ready0 with stopped := true, inbound := [0xA5] }.inbound = 0xA5 :: [] := by decide +kernel

theorem witness_EveryCommandCompletes :
    (∀ w ∈ (flight .erasing [⟨4095, image0, .bulk⟩]).msu.queue.head?, w.block < arrayBlocks) ∧
    faultIs (exec (.eraseEnd []) (flight .erasing [⟨4096, image0, .bulk⟩])) (.noSuchBlock 4096) = true := by
  decide +kernel

theorem witness_CommandsTurnedAway :
    (withReplies 16 ready0).cmu.fill = none ∧ (withReplies 15 ready0).cmu.fill = none ∧
    Instr.commandForm (.mute 9 [0]) = some (9, 0x33, false, true) ∧
    Instr.commandForm (.mute 9 []) = some (9, 0x33, false, false) ∧
    (withReplies 16 ready0).running ∧ replyCapacity ≤ (withReplies 16 ready0).fiu.replies.length ∧
    (withReplies 15 ready0).running ∧ (withReplies 15 ready0).fiu.replies.length < replyCapacity ∧
    State.reset.cmu.started = false ∧
    { ready0 with cmu := { ready0.cmu with restartPending := true } }.cmu.restartPending = true ∧
    commandOf 9 [] = .unknownCommand 9 [] ∧ commandOf 9 [0xFF] = .unknownCommand 9 [0xFF] := by
  decide +kernel

theorem witness_StartsResetUnits_blank : ready0.msu.cutBlock = none ∧
    ∀ n < configBlocks, blockByte ready0.msu.array (configStart + n) 0 ≠ markerRecord ∧
      blockByte ready0.msu.array (configStart + n) 0 ≠ markerTable := by decide +kernel

/-- The state after a RESTART whose reply has been sent. -/
def drained : State :=
  { ready0 with cmu := { ready0.cmu with restartPending := true, restartSent := true } }

theorem witness_StartsResetUnits :
    (drained.running ∧ drained.cmu.restartPending = true ∧ drained.cmu.restartSent = true ∧
      drained.msu.queue = [] ∧ drained.msu.job.outcome ≠ .running) ∧
    ready0.cmu.restartPending = false ∧
    { drained with cmu := { drained.cmu with restartSent := false } }.cmu.restartSent = false ∧
    (flight .erasing [write0]).msu.queue ≠ [] ∧
    { drained with msu := { drained.msu with job := ⟨.commit, 0, 0, 0, .running, false, false⟩ }
        }.msu.job.outcome = .running := by decide +kernel

theorem witness_StartDoneOpensPart :
    State.reset.running ∧ State.reset.cmu.started = false ∧ ready0.cmu.started = true ∧
    (let s := { State.reset with settings := { Settings.defaults with mainBoards := 0x80000001#32 } }
     s.settings.mainBoards.getLsbD 31 = true ∧ s.settings.mainBoards.getLsbD 0 = true ∧
     (s.omu.link .main).queue = [] ∧ (s.omu.link .main).line = none ∧
     nextIs (exec .startDone s) (fun t => t.omu.main.queue == [31] && t.omu.main.line.isSome)
       = true) ∧
    (let s := { State.reset with settings := { Settings.defaults with mainBoards := 0x80000001#32 } }
     let waiting (line : Option BoardFrame) : State := { s with omu := { s.omu with
       main := { s.omu.main with queue := [0, 5], line := line } } }
     nextIs (exec .startDone (waiting none)) (fun t => t.omu.main.queue == [5, 0, 31] &&
       t.omu.main.line == some ⟨0, Vector.replicate 64 false⟩) = true ∧
     nextIs (exec .startDone (waiting (some ⟨31, Vector.replicate 64 true⟩))) (fun t =>
       t.omu.main.queue == [0, 5, 31] &&
       t.omu.main.line == some ⟨31, Vector.replicate 64 true⟩) = true) := by decide +kernel

theorem witness_PowerLossStopsPart :
    { ready0 with stopped := true }.stopped = true ∧ Instr.msStep ≠ .start ∧
    Instr.msStep ≠ .powerLoss ∧ (flight .programming [write0]).memoryLaw ∧
    50 ∈ (flight .programming [write0]).msu.cutBlock ∧ 50 < arrayBlocks ∧
    (flight .programming [write0]).msu.queue = write0 :: [] ∧
    (flight .erasing [write0]).msu.engine = .erasing ∧
    (flight .idle [write0]).msu.engine = .idle ∧
    (flight .verifying [write0]).msu.engine = .verifying := by decide +kernel

/-- Timers of every kind, with the tick count `n`. -/
def ticking (n : Nat) : State :=
  { withTrap 0 { TrapChan.reset with entry := .valid trapRoll, beat := ⟨true, 9, false⟩ }
      (withUnit 0 { unit0 with reiterator := ⟨true, 255, false⟩ }
        (withUnit 7 { unit0 with reiterator := ⟨true, 19, false⟩ } boards0)) with
    efu := trems0.efu, tick := BitVec.ofNat 32 n }

theorem witness_TickAdvancesTimers : (ticking 3).running ∧
    ((ticking 3).tick + 1).toNat % 4 = 0 ∧ ((ticking 4294967295).tick + 1).toNat % 4 = 0 ∧
    ((ticking 2).tick + 1).toNat % 4 ≠ 0 ∧ ((ticking 4).tick + 1).toNat % 4 ≠ 0 ∧
    keysE ∈ ((ticking 3).isu.board 0).entry.entry? ∧ ((ticking 3).isu.board 0).silence = some 7 ∧
    ((ticking 3).isu.board 31).silence = some shoesE.timeout ∧
    ((ticking 3).isu.board 30).silence = none ∧ perc0 ∈ ((ticking 3).ptu.unit 7).entry.entry? ∧
    trapRoll ∈ ((ticking 3).ptu.trap 0).entry.entry? ∧
    trem0 ∈ ((ticking 3).efu.trem 0).entry.entry? ∧
    nextIs (exec .msStep (ticking 3)) (fun t =>
      (t.isu.board 0).silence == some 8 && (t.isu.board 31).silence == some 10 &&
      (t.ptu.unit 7).reiterator == ⟨true, 0, true⟩ &&
      (t.ptu.unit 0).reiterator == ⟨true, 0, false⟩ && (t.ptu.trap 0).beat == ⟨true, 0, true⟩) = true :=
  by decide +kernel

/-- The FIU in the middle of a frame, `quiet` ticks after its last byte. -/
def midFrame (bytes : List Byte) (quiet : Nat) (inbound : List Byte) : State :=
  { ready0 with fiu := { ready0.fiu with rx := .partway bytes quiet }, inbound := inbound }

theorem witness_InboundFramesDiscarded : boards0.running ∧ receive [1, 0, 65] = .bad ∧
    (midFrame [1] 4 []).fiu.rx = .partway [1] 4 ∧ (midFrame [1] 3 []).fiu.rx = .partway [1] 3 ∧
    boards0.fiu.rx = .hunting ∧ boards0.cmu.fill = none ∧
    nextIs (exec (.byteGap [1]) (midFrame [1] 4 [])) (fun t => t.fiu.rx == .hunting &&
      t.cmu.causes == 4) = true ∧ State.reset.cmu.started = false ∧ boards0.cmu.started = true ∧
    31 < (32 : Byte).toNat ∧ (30 : Byte).toNat ≤ 31 ∧
    (boards0.isu.board (30 : Byte).toNat).entry.entry? = none ∧ (31 : Byte).toNat ≤ 31 ∧
    (boards0.isu.board (31 : Byte).toNat).entry = .valid shoesE ∧
    [0, 0, 0].length ≠ (if shoesE.kind = .shoes then shoesE.count else 8) ∧
    (boards0.isu.board (31 : Byte).toNat).state = .live ∧
    ((withBoards [(31, boardOf shoesE .lost none)] boards0).isu.board (31 : Byte).toNat).state ≠ .live :=
  by decide +kernel

/-- A RELEASE ALL from panel 7 comes behind one byte of noise, with a byte after it. -/
def lineFrame : List Byte := 0x00 :: 0xA5 :: (frameBytes kindCommand 7 [0x35] ++ [0x11])

theorem witness_LineBytesMakeFrames :
    (midFrame [] 3 [0x01]).running ∧ (midFrame [] 3 [0x01]).pending = [] ∧
    (midFrame [] 3 [0x01]).inbound = 0x01 :: [] ∧ receive ([] ++ [0x01]) = .unfinished ∧
    decodeFrame ([1, 0] ++ [65]) = some (.badFrame [1, 0, 65]) ∧
    (midFrame [1, 0] 4 [65]).fiu.rx = .partway [1, 0] 4 ∧
    Instr.wellFormed (.releaseAll 7 []) = true ∧
    encodeFrame (.releaseAll 7 []) = some (frameBytes kindCommand 7 [0x35]) ∧
    (∀ b ∈ [(0x00 : Byte)], b ≠ 0xA5#8) ∧ ready0.fiu.rx = .hunting ∧
    { ready0 with inbound := lineFrame }.inbound =
      [0x00] ++ 0xA5 :: (frameBytes kindCommand 7 [0x35] ++ [0x11]) := by
  refine ⟨rfl, rfl, rfl, ?_, ?_, rfl, ?_, rfl, ?_, rfl, rfl⟩ <;> decide +kernel

/-- Contacts in each state that a report can meet. -/
def contacts0 : State :=
  let contacts :=
    put (put (put Board.reset.contacts 0 ⟨true, 0, true⟩) 1 ⟨true, 1, false⟩) 60 ⟨false, 1, false⟩
  withBoards [(0, { boardOf keysE .live (some 0) with contacts := contacts })] boards0

theorem witness_LiveFrameDebounces :
    contacts0.cmu.fill = none ∧
    let s := contacts0
    let payload : List Byte := [0x06, 0, 0, 0, 0, 0, 0, 0x10]
    s.running ∧ s.cmu.started = true ∧ (s.isu.board 0).entry = .valid keysE ∧ keysE.kind ≠ .shoes ∧
    (s.isu.board 0).state = .live ∧ payload.length = 8 ∧
    ((s.isu.board 0).contact 0).suppressed = true ∧ bitAt payload 0 = false ∧
    bitAt payload 1 = ((s.isu.board 0).contact 1).accepted ∧
    bitAt payload 2 ≠ ((s.isu.board 0).contact 2).accepted ∧
    ((s.isu.board 0).contact 2).candidate + 1 < keysE.debounce ∧
    bitAt payload 60 ≠ ((s.isu.board 0).contact 60).accepted ∧
    keysE.debounce ≤ ((s.isu.board 0).contact 60).candidate + 1 ∧ keysE.count ≤ 63 ∧
    nextIs (exec (.scanFrame 0 payload) s) (fun t =>
      ((t.isu.board 0).contact 0 == ⟨true, 0, false⟩) && ((t.isu.board 0).contact 60).accepted &&
        t.isu.touchOf 2 60 == .first) = true := by decide +kernel

theorem witness_LiveFrameDebounces_kinds :
    let payload : List Byte := [0, 0, 0, 0x80, 0, 0, 0, 0x80]
    (boards0.isu.board 2).entry = .valid studsE ∧ studsE.first + 31 < 32 ∧
    (boards0.isu.board 3).entry = .valid pistonsE ∧ pistonsE.first + 63 < 64 ∧
    nextIs (exec (.scanFrame 2 payload) boards0) (fun t => nth t.ptu.heldStuds 31 false) = true ∧
    nextIs (exec (.scanFrame 3 payload) boards0) (fun t => nth t.rgu.pressed 63 false) = true := by
  decide +kernel

/-- Three tabs that move: one that settles to where it goes, one that settles elsewhere, one that the organist
has moved, whose drive still waits. -/
def tabs0 : State :=
  { boards0 with rgu := { Rgu.reset with
      settle := [⟨192, true, 1, none, false⟩, ⟨193, false, 2, none, false⟩]
      tabQueue := [⟨1, [⟨192, true, 2⟩, ⟨255, false, 1⟩]⟩] } }

theorem witness_LiveFrameDebounces_tabs :
    let payload : List Byte := [3, 0, 0, 0, 0, 0, 0, 0x80]
    tabs0.running ∧ tabs0.cmu.fill = none ∧ (tabs0.isu.board 1).entry = .valid tabsE ∧
    tabsE.kind = .tabs ∧ tabs0.une.stopOn = tabs0.rgu.stopState ∧ tabsE.first + 63 < 256 ∧
    bitAt payload 63 ≠ ((tabs0.isu.board 1).contact 63).accepted ∧
    tabs0.rgu.settle.find? (fun y => y.stop == 192) = some ⟨192, true, 1, none, false⟩ ∧
    tabs0.rgu.settle.find? (fun y => y.stop == 193) = some ⟨193, false, 2, none, false⟩ ∧
    (∀ y ∈ tabs0.rgu.settle, y.stop ≠ 255) ∧ tabs0.rgu.isOn 255 ≠ bitAt payload 63 ∧
    nextIs (exec (.scanFrame 1 payload) tabs0) (fun t => t.rgu.settle.map Settle.stop == [193] &&
      t.rgu.tabQueue.isEmpty && t.rgu.isOn 255 && !t.rgu.isOn 192 && !t.rgu.isOn 193) = true := by
  decide +kernel

/-- Boards that have not been heard. -/
def unheard : State :=
  withBoards [(0, { boardOf keysE .lost none with
      contacts := put Board.reset.contacts 0 ⟨false, 0, true⟩ }),
    (1, boardOf tabsE .awaited none), (2, boardOf studsE .awaited none),
    (4, boardOf shoesE .lost none), (31, boardOf { tabsE with first := 128 } .lost none)] ready0

theorem witness_FirstFrameEntersLive :
    let p8 : List Byte := [1, 0, 0, 0, 0, 0, 0, 0x80]
    unheard.running ∧ unheard.cmu.started = true ∧ unheard.cmu.fill = none ∧
    (unheard.isu.board 0).entry = .valid keysE ∧ (unheard.isu.board 0).state = .lost ∧
    (unheard.isu.board 1).entry = .valid tabsE ∧ (unheard.isu.board 1).state = .awaited ∧
    tabsE.first + tabsE.count ≤ 256 ∧
    (unheard.isu.board 2).entry = .valid studsE ∧ (unheard.isu.board 2).state = .awaited ∧
    (unheard.isu.board 4).entry = .valid shoesE ∧ [0, 0, 0, 255].length = shoesE.count ∧
    p8.length = 8 ∧
    nextIs (exec (.scanFrame 0 p8) unheard) (fun t => t.cmu.lastBack == some 0 &&
      (t.isu.board 0).contact 0 == ⟨false, 0, true⟩) = true ∧
    nextIs (exec (.scanFrame 1 p8) unheard) (fun t => t.rgu.isOn 192 && t.rgu.isOn 255) = true ∧
    nextIs (exec (.scanFrame 31 p8) unheard) (fun t => !t.rgu.isOn 128 &&
      ((t.isu.board 31).contact 0).accepted && t.fiu.line != .idle) = true := by decide +kernel

theorem witness_ShoeFrameFollowed : boards0.running ∧ boards0.cmu.started = true ∧
    (boards0.isu.board 31).entry = .valid shoesE ∧ shoesE.kind = .shoes ∧
    shoesE.first + shoesE.count ≤ 4 ∧ (boards0.isu.board 31).state = .live ∧
    [255, 0, 0, 128].length = shoesE.count ∧ boards0.cmu.fill = none ∧
    nextIs (exec (.scanFrame 31 [255, 0, 0, 128]) boards0)
      (fun t => t.efu.shoe 0 == 255 && t.efu.shoe 3 == 128) = true := by decide +kernel

/-- Shoe 3 moves to 128: level 32, 16 stages, target 8; channel 0 follows at once, channel 1 by its timer. -/
def pedals0 : State :=
  { boards0 with efu := { Efu.reset with
      exprs := put (put Efu.reset.exprs 0 ⟨.valid { expr0 with slew := 0 }, 0, 0, 0, 0, none⟩) 1
        ⟨.valid expr0, 0, 0, 0, 0, none⟩ } }

theorem witness_ShoeFrameFollowed_channels :
    expr0 ∈ (pedals0.efu.expr 1).entry.entry? ∧ expr0.shoe = 3 ∧ expr0.slew ≠ 0 ∧
    (boards0.efu.expr 0).entry.entry? = none ∧
    nextIs (exec (.scanFrame 31 [255, 0, 0, 128]) pedals0) (fun t =>
      t.efu.expr 0 == ⟨.valid { expr0 with slew := 0 }, 32, 32, 8, 8, none⟩ &&
      t.efu.expr 1 == ⟨.valid expr0, 32, 32, 8, 0, some 2⟩ && t.omu.count 907 == 1 &&
      t.omu.count 908 == 0) = true := by decide +kernel

theorem witness_SilenceExpiryLosesBoard : boards0.running ∧
    (boards0.isu.board 1).entry = .valid tabsE ∧ (boards0.isu.board 1).state = .live ∧
    (boards0.isu.board 1).silence = some tabsE.timeout ∧
    (boards0.isu.board 0).entry = .valid keysE ∧ (boards0.isu.board 0).silence ≠ some keysE.timeout ∧
    (unheard.isu.board 4).state ≠ .live ∧
    nextIs (exec (.silenceTimerExpiry 0)
        (withBoards [(0, { boardOf keysE .live (some 50) with
          contacts := put Board.reset.contacts 60 ⟨true, 1, true⟩ })] boards0))
      (fun t => (t.isu.board 0).state == .lost &&
        (t.isu.board 0).contact 60 == ⟨false, 0, true⟩) = true := by decide +kernel

theorem witness_PitchAndFoldArithmetic :
    (let e : StopEntry := { stop40 with lowKey := 5, highKey := 50 }
     4 < e.lowKey ∧ e.highKey < 51 ∧ e.lowKey ≤ 5 ∧ 50 ≤ e.highKey) ∧
    ((0 : Int) = 36 + (0 : Nat) + stop40.offset - (36 : Nat) ∧
      pitchIndex stop40 36 61 0 = some 0 ∧ pitchIndex stop40 36 61 60 = some 60 ∧
      pitchIndex stop40 36 60 60 = foldDown .none 60 60 ∧
      pitchIndex stop40 37 61 0 = foldUp .none 61 (-1)) := by decide

theorem witness_PitchAndFoldArithmetic_fold : (0 : Nat) < 1 ∧ ((12 : Nat) : Int) ≤ 12 ∧ (12 : Nat) ≤ 12 ∧
    foldDown .down 12 12 = some 0 ∧ foldDown .both 11 11 = none ∧ foldUp .up 12 (-1) = some 11 ∧
    foldUp .both 11 (-1) = none ∧ (-1 : Int) < 0 := by decide

theorem witness_SearchFindsLowestStop : organ0.ready ∧ [0, 3, 41].length = 3 ∧
    3 < byteAt [4, 0, 0] 0 ∧ byteAt [0, 3, 41] 0 = StopKind.rank.code ∧
    32 ≤ byteAt [0, 32, 0] 1 ∧ byteAt [1, 8, 0] 0 = StopKind.percussion.code ∧
    8 ≤ byteAt [1, 8, 0] 1 ∧ byteAt [0, 31, 0] 1 < 32 ∧ organ0.une.stop 41 = .valid stop41 ∧
    stop41.kind = .rank ∧ stop41.target = 3 ∧ organ0.une.search .rank 3 0 = some 40 ∧
    organ0.une.search .rank 3 42 = none := by decide +kernel

/-- Pipe 96 of rank 3 with its direct flag set. -/
def direct0 : State :=
  { organ0 with une := (organ0.une.withDirect 3 96 true).withCount 3 96 1 }

theorem witness_DirectFlagCommands : organ0.ready ∧ [3, 96].length = 2 ∧
    32 ≤ byteAt [32, 0] 0 ∧ (organ0.une.rank 31).entry? = none ∧
    organ0.une.rank 3 = .valid rank3 ∧ rank3.count ≤ byteAt [3, 97] 1 ∧ byteAt [3, 96] 1 < rank3.count ∧
    organ0.une.directFlag 3 96 = false ∧ direct0.ready ∧ direct0.une.directFlag 3 96 = true ∧
    nextIs (exec (.soundPipe 9 [3, 96]) organ0) (fun t => t.omu.count 1096 == 1) = true ∧
    nextIs (exec (.silencePipe 9 [3, 96]) direct0) (fun t => t.une.count 3 96 == 0) = true := by
  decide +kernel

theorem witness_DirectFlagCommands_all : direct0.ready ∧ rank3 ∈ (direct0.une.rank 3).entry? ∧
    96 < rank3.count ∧ direct0.une.directFlag 3 96 = true ∧
    (∀ e ∈ (direct0.une.rank 4).entry?, e.count ≤ 0) := by decide +kernel

/-- Unit 7 with a striking note, a queued one and one that rests with a blow pending; channel 31 in a
COUNTED run, channel 0 HELD. -/
def blows0 : State :=
  withTrap 31 { TrapChan.reset with
      entry := .valid trapCounted, state := .striking, timer := 3, remaining := 2, out := true,
      beat := ⟨true, 4, false⟩ }
    (withTrap 0 { TrapChan.reset with
        entry := .valid trapHeld, demand := 1, cueHold := true, out := true, pending := true }
      (withUnit 7 { unit0 with
          notes := notesOf [(0, ⟨.striking, 0, false, 0⟩), (24, ⟨.queued, 0, false, 0⟩),
            (5, ⟨.resting, 0, true, 0⟩), (6, ⟨.striking, 1, false, 0⟩)]
          queue := [24], striking := 2 } sounding))

theorem witness_MuteChangesChamber : blows0.ready ∧ [1].length = 1 ∧ 1 < byteAt [2] 0 ∧
    byteAt [1] 0 = chamberCode .solo ∧ byteAt [0] 0 = chamberCode .main ∧
    blows0.une.muted .solo = false ∧ ready0.une.muted .solo = true ∧
    perc0 ∈ (blows0.ptu.unit 7).entry.entry? ∧ perc0.chamber = .solo ∧ perc0.count ≤ 49 ∧
    (Chamber.main ≠ .solo) ∧ (∀ e ∈ (blows0.ptu.unit 0).entry.entry?, e.chamber ≠ .solo) ∧
    (∀ e ∈ (blows0.ptu.trap 5).entry.entry?, e.chamber ≠ .solo) ∧
    trapCounted ∈ (blows0.ptu.trap 31).entry.entry? ∧ trapCounted.mode = .counted ∧
    nextIs (exec (.mute 9 [1]) blows0) (fun t => ((t.ptu.unit 7).note 24).state == .idle &&
      (t.ptu.trap 31).remaining == 0 && !(t.ptu.trap 0).out) = true := by decide +kernel

theorem witness_ReleaseAllSilences : boards0.ready ∧
    keysE ∈ (boards0.isu.board 0).entry.entry? ∧ keysE.kind = .keys ∧
    tabsE ∈ (boards0.isu.board 1).entry.entry? ∧ tabsE.kind ≠ .keys ∧
    rank3 ∈ (direct0.une.rank 3).entry? ∧ perc0 ∈ (blows0.ptu.unit 7).entry.entry? ∧
    trapCounted ∈ (blows0.ptu.trap 31).entry.entry? ∧
    nextIs (exec (.releaseAll 9 []) blows0) (fun t => ((t.ptu.unit 7).note 24).state == .idle &&
      !(t.ptu.trap 0).cueHold && !(t.ptu.trap 0).out) = true := by decide +kernel

/-- Two windows of stop 41, the second one reached. -/
def windows0 : State :=
  { organ0 with une := { organ0.une.withCount 3 48 1 with
      pizz := [⟨41, 35, 9, false⟩, ⟨41, 36, 8, true⟩] } }

theorem witness_PizzicatoExpiryEndsWindow : windows0.running ∧
    (∀ z ∈ organ0.une.pizz, z.reached = false) ∧
    windows0.une.pizz = [⟨41, 35, 9, false⟩] ++ ⟨41, 36, 8, true⟩ :: [] ∧
    windows0.une.stop 41 = .valid stop41 ∧
    windows0.une.target windows0.ptu stop41 36 = some (.pipe 3 48) ∧
    windows0.une.rank 3 = .valid rank3 ∧
    nextIs (exec .pizzicatoExpiry windows0) (fun t => t.une.count 3 48 == 0 &&
      t.une.pizz.length == 1) = true := by decide +kernel

theorem witness_NoteTimersEnd : blows0.running ∧ (blows0.ptu.unit 7).entry = .valid perc0 ∧
    ((blows0.ptu.unit 7).note 0).state = .striking ∧ ((blows0.ptu.unit 7).note 0).timer = 0 ∧
    0 ∉ (blows0.ptu.unit 7).queue ∧ (blows0.ptu.unit 7).queue = 24 :: [] ∧
    ((blows0.ptu.unit 7).note 6).timer ≠ 0 ∧ ((blows0.ptu.unit 7).note 48).state ≠ .striking ∧
    ((blows0.ptu.unit 7).note 5).state = .resting ∧ ((blows0.ptu.unit 7).note 5).timer = 0 ∧
    ((blows0.ptu.unit 7).note 5).pending = true ∧ blows0.ptu.muted perc0.chamber = false ∧
    perc0.budget ≤ (blows0.ptu.unit 7).striking ∧
    nextIs (exec (.pulseEnd 7 0) blows0) (fun t =>
      (t.ptu.unit 7).note 24 == ⟨.striking, 20, false, 0⟩ &&
        (t.ptu.unit 7).note 0 == ⟨.resting, 24, false, 0⟩) = true ∧
    nextIs (exec (.restEnd 7 5) blows0) (fun t => (t.ptu.unit 7).queue == [24, 5]) = true := by
  decide +kernel

/-- A rest that ends with the budget not full, and one with no blow pending. -/
theorem witness_NoteTimersEnd_idle :
    let s := withUnit 0 { unit0 with
      notes := notesOf [(24, ⟨.resting, 0, true, 0⟩), (0, ⟨.resting, 0, false, 0⟩)], striking := 1 } sounding
    s.running ∧ (s.ptu.unit 0).striking < perc0.budget ∧ ((s.ptu.unit 0).note 24).pending = true ∧
    ((s.ptu.unit 0).note 0).pending = false ∧
    nextIs (exec (.restEnd 0 24) s) (fun t =>
      (t.ptu.unit 0).note 24 == ⟨.striking, 20, false, 0⟩) = true ∧
    nextIs (exec (.restEnd 0 0) s) (fun t => (t.ptu.unit 0).note 0 == Note.rest) = true := by
  decide +kernel

/-- A roll of three notes whose beat is due, with one place left in the budget. -/
def roll0 : State :=
  withUnit 7 { unit0 with
    notes := notesOf [(0, ⟨.striking, 2, false, 1⟩), (1, ⟨.idle, 0, false, 1⟩),
      (24, ⟨.idle, 0, false, 1⟩), (2, ⟨.resting, 3, false, 1⟩)]
    striking := 1, reiterator := ⟨true, 0, true⟩ } sounding

theorem witness_ReiteratorBeatStrikes : roll0.running ∧ (roll0.ptu.unit 7).entry = .valid perc0 ∧
    perc0.count ≤ 49 ∧
    ((roll0.ptu.unit 7).reiterator.running && (roll0.ptu.unit 7).reiterator.due) = true ∧
    ((blows0.ptu.unit 7).reiterator.running && (blows0.ptu.unit 7).reiterator.due) = false ∧
    roll0.ptu.muted perc0.chamber = false ∧ ready0.ptu.muted perc0.chamber = true ∧
    nextIs (exec (.reiteratorBeat 7) roll0) (fun t => ((t.ptu.unit 7).note 1).state == .striking &&
      (t.ptu.unit 7).queue == [24] && ((t.ptu.unit 7).note 2).pending) = true := by decide +kernel

def trapAt (e : TrapEntry) (st : NoteState) (timer : Nat) (pending : Bool) (remaining : Nat) : TrapChan :=
  { TrapChan.reset with
    entry := .valid e, state := st, timer := timer, pending := pending, remaining := remaining,
    beat := ⟨true, 0, true⟩, out := st == .striking }

/-- Channels in each of the conditions the trap events tell apart. -/
def traps0 : State :=
  withTrap 0 (trapAt trapCounted .striking 0 false 1)
    (withTrap 1 (trapAt trapCounted .resting 0 true 1)
      (withTrap 2 (trapAt trapRoll .resting 0 false 0)
        (withTrap 3 (trapAt trapCounted .idle 0 false 1)
          (withTrap 31 (trapAt trapCounted .idle 0 false 0) sounding))))

theorem witness_TrapEventsTaken : traps0.running ∧
    (traps0.ptu.trap 0).entry = .valid trapCounted ∧ (traps0.ptu.trap 0).state = .striking ∧
    (traps0.ptu.trap 0).timer = 0 ∧ (blows0.ptu.trap 31).timer ≠ 0 ∧
    (traps0.ptu.trap 1).state = .resting ∧ (traps0.ptu.trap 1).pending = true ∧
    (traps0.ptu.trap 2).entry = .valid trapRoll ∧ (traps0.ptu.trap 2).pending = false ∧
    ((traps0.ptu.trap 3).beat.running && (traps0.ptu.trap 3).beat.due) = true ∧
    ((blows0.ptu.trap 31).beat.running && (blows0.ptu.trap 31).beat.due) = false ∧
    traps0.ptu.muted trapCounted.chamber = false ∧ 0 < (traps0.ptu.trap 3).remaining ∧
    (traps0.ptu.trap 31).remaining = 0 ∧ (traps0.ptu.trap 31).state ≠ .striking ∧
    nextIs (exec (.trapBeat 3) traps0) (fun t => (t.ptu.trap 3).state == .striking &&
      (t.ptu.trap 3).remaining == 0 && !(t.ptu.trap 3).beat.running) = true ∧
    nextIs (exec (.trapRestEnd 1) traps0) (fun t => (t.ptu.trap 1).state == .striking) = true ∧
    nextIs (exec (.trapPulseEnd 0) traps0) (fun t =>
      (t.ptu.trap 0).state == .resting && (t.ptu.trap 0).timer == 20) = true := by decide +kernel

theorem witness_CueActsOnSet : blows0.ready ∧ [1, 0, 0, 0x80, 1].length = 5 ∧
    byteAt [1, 0, 0, 0x80, 1] 4 = 1 ∧ byteAt [1, 0, 0, 0x80, 2] 4 = 2 ∧
    byteAt [1, 0, 0, 0x80, 0] 4 = 0 ∧ byteAt [0, 0, 0, 0, 3] 4 ≠ 0 ∧
    bitAt [1, 0, 0, 0x80, 1] 31 = true ∧ bitAt [1, 0, 0, 0x80, 1] 30 = false ∧
    (blows0.ptu.trap 31).cueHold = false ∧ (blows0.ptu.trap 0).cueHold = true ∧
    (blows0.ptu.trap 5).entry.entry? = none ∧ trapHeld ∈ (blows0.ptu.trap 0).entry.entry? ∧
    trapRoll ∈ (traps0.ptu.trap 2).entry.entry? ∧ blows0.ptu.muted .solo = false ∧
    ready0.ptu.muted .solo = true ∧ (traps0.ptu.trap 3).state = .idle ∧
    (traps0.ptu.trap 1).state = .resting := by decide +kernel

/-- A channel of each mode, IDLE, uncalled and unmuted: REITERATE, PULSE, HELD and COUNTED. -/
def cues0 : State :=
  withTrap 0 { TrapChan.reset with entry := .valid trapRoll }
    (withTrap 1 { TrapChan.reset with entry := .valid { trapRoll with mode := .pulse } }
      (withTrap 2 { TrapChan.reset with entry := .valid trapHeld }
        (withTrap 31 { TrapChan.reset with entry := .valid trapCounted } sounding)))

/-- HOLD ON rolls the REITERATE channel and sounds the HELD one, and strikes neither of the others; HOLD OFF ends
both, but for the blow in progress. -/
theorem witness_CueActsOnSet_holds : cues0.ready ∧ trapRoll ∈ (cues0.ptu.trap 0).entry.entry? ∧
    (cues0.ptu.trap 0).demand = 0 ∧ trapCounted ∈ (cues0.ptu.trap 31).entry.entry? ∧
    nextIs (exec (.cueHoldOn 9 [7, 0, 0, 0x80, 1]) cues0) (fun t =>
      (t.ptu.trap 0).beat == ⟨true, 0, false⟩ && (t.ptu.trap 0).state == .striking &&
      (t.ptu.trap 1).state == .idle && (t.ptu.trap 31).state == .idle && (t.ptu.trap 2).out &&
      t.omu.count 700 == 1 && t.omu.count 702 == 1 &&
      nextIs (exec (.cueHoldOff 9 [7, 0, 0, 0x80, 2]) t) (fun u =>
        !(u.ptu.trap 0).beat.running && (u.ptu.trap 0).state == .striking && !(u.ptu.trap 2).out &&
        u.omu.count 700 == 0 && u.omu.count 702 == 1)) = true := by decide +kernel

theorem witness_IntervalsChangeLive : roll0.ready ∧ byteAt [0, 7, 10] 0 = 0 ∧
    byteAt [0, 7, 10] 1 < 8 ∧ (roll0.ptu.unit 7).entry = .valid perc0 ∧ 10 ≤ byteAt [0, 7, 10] 2 ∧
    byteAt [0, 7, 9] 2 < 10 ∧ 8 ≤ byteAt [0, 8, 10] 1 ∧ (roll0.ptu.unit 0).entry.entry? = none ∧
    traps0.ready ∧ byteAt [1, 31, 10] 0 = 1 ∧ byteAt [1, 31, 10] 1 < 32 ∧
    (traps0.ptu.trap 31).entry = .valid trapCounted ∧ 32 ≤ byteAt [1, 32, 10] 1 ∧
    (traps0.ptu.trap 30).entry.entry? = none ∧ byteAt [2, 0, 10] 0 ≠ 0 ∧ byteAt [2, 0, 10] 0 ≠ 1 ∧
    (blows0.ptu.unit 7).reiterator.due = false ∧ (blows0.ptu.trap 31).beat.due = false ∧
    nextIs (exec (.setReiteration 9 [0, 7, 10]) roll0) (answered .done []) = true := by decide +kernel

theorem witness_EffectTimersEnd : trems0.running ∧ (trems0.efu.trem 0).entry = .valid trem0 ∧
    trem0.source = .free ∧ (trems0.efu.trem 0).counter = (trems0.efu.trem 0).length ∧
    (trems0.efu.trem 11).entry = .valid trem1 ∧ trem1.source = .slave 0 2 ∧
    2 ≤ (trems0.efu.trem 11).counter + 1 ∧ trem1.source ≠ .free ∧
    (trems0.efu.trem 5).entry.entry? = none := by decide +kernel

theorem witness_EffectTimersEnd_step : exprs0.running ∧ (exprs0.efu.expr 1).entry = .valid expr0 ∧
    (exprs0.efu.expr 1).timer = some 0 ∧ (exprs0.efu.expr 1).current < (exprs0.efu.expr 1).target ∧
    (exprs0.efu.expr 0).timer ≠ some 0 := by decide +kernel

theorem witness_LevelAndTargetArithmetic : 255 ≤ 255 ∧ 2 ^ 7 ≤ 255 ∧ 255 < 2 ^ (7 + 1) ∧
    2 ^ 0 ≤ 1 ∧ levelOf .tapered 128 = 56 ∧ levelOf .linear 255 = 63 ∧
    acceptLevel 7 63 62 = 63 ∧ acceptLevel 7 17 10 = 17 ∧ acceptLevel 7 16 10 = 10 ∧ 62 ≤ 63 := by
  decide

theorem witness_TremulantAndShoeCommands : trems0.ready ∧ [11, 10, 10].length = 3 ∧
    byteAt [11, 10, 10] 0 < 12 ∧ (trems0.efu.trem 11).entry = .valid trem1 ∧
    10 ≤ byteAt [11, 10, 10] 1 ∧ 12 ≤ byteAt [12, 10, 10] 0 ∧ byteAt [0, 9, 10] 1 < 10 ∧
    byteAt [0, 10, 9] 2 < 10 ∧ (trems0.efu.trem 1).entry.entry? = none ∧
    exprs0.ready ∧ [1, 3].length = 2 ∧ byteAt [1, 3] 0 < 2 ∧ byteAt [1, 3] 1 < 4 ∧
    (exprs0.efu.expr 1).entry = .valid expr0 ∧ expr0.slew ≠ 0 ∧ { expr0 with slew := 0 }.slew = 0 ∧
    2 ≤ byteAt [2, 0] 0 ∧ 4 ≤ byteAt [0, 4] 1 ∧ (exprs0.efu.expr 0).entry.entry? = none ∧
    nextIs (exec (.assignShoe 9 [1, 3]) exprs0) (fun t => (t.efu.expr 1).level == 63) = true := by
  decide +kernel

/-- Stop 255 ON with a live tab, its tab known to stand OFF, and one record on the stack. -/
def stops0 : State :=
  { boards0 with rgu := { Rgu.reset with
      stopState := put Rgu.reset.stopState 255 true, stack := [Rgu.reset.stopState] } }

theorem witness_StopsSetAsNamed : stops0.ready ∧ (digits [(255, 2), (0, 1)]).length = 52 ∧
    (∀ j < 52, byteAt (digits [(255, 2), (0, 1)]) j ≤ 242) ∧ byteAt (digits [(255, 2)]) 51 ≤ 2 ∧
    242 < byteAt (List.replicate 52 243) 0 ∧ 2 < byteAt (digits [(256, 1)]) 51 ∧
    byteAt [4] 0 ≤ 4 ∧ byteAt [0xFF] 0 = 0xFF ∧ 5 ≤ byteAt [5] 0 ∧ byteAt [0xFE] 0 ≠ 0xFF ∧
    ready0.rgu.stack = [] ∧ stops0.rgu.stack = Rgu.reset.stopState :: [] ∧
    nextIs (exec (.setStops 9 (digits [(255, 2), (0, 1)])) stops0) (fun t => !t.rgu.isOn 255 &&
      t.rgu.isOn 0 && (match t.fiu.line with | .tab e _ => e.drives == [⟨255, false, 1⟩] | _ => false))
      = true ∧
    nextIs (exec (.pop 9 []) stops0) (fun t => !t.rgu.isOn 255 && t.rgu.stack.isEmpty) = true := by
  decide +kernel

/-- Memory 50 of level 0 waits in the queue as `image0`. -/
def recorded : State := flight .idle [write0]

theorem witness_RecallSetsScope : recorded.ready ∧ [50].length = 1 ∧ 69 < byteAt [70] 0 ∧
    byteAt [69] 0 ≤ 69 ∧ (recorded.msu.read (recorded.rgu.level * 70 + 69)).1 = none ∧
    (recorded.msu.read (recorded.rgu.level * 70 + 50)).1 = some image0 ∧
    (recorded.msu.read (recorded.rgu.level * 70 + 49)).1 = none ∧
    nextIs (exec (.recall 9 [50]) recorded) (fun t => t.rgu.isOn 40 && t.rgu.position == some 0)
      = true := by decide +kernel

theorem witness_CaptureJudged : ready0.ready ∧ 69 < byteAt [70] 0 ∧ byteAt [69] 0 ≤ 69 ∧
    { Settings.defaults with lockMask := 1#32 }.lockMask.getLsbD 0 = true ∧
    ready0.settings.lockMask.getLsbD ready0.rgu.level = false ∧
    (flight .erasing (List.replicate 8 write0)).msu.queue.length = 8 ∧
    (∀ w ∈ (flight .erasing (List.replicate 8 write0)).msu.waiting, w.block ≠ 69) ∧
    (flight .erasing (List.replicate 7 write0)).msu.queue.length < 8 ∧
    (recorded.msu.waiting.any fun w => w.block == 50) = true ∧ ready0.msu.job.outcome ≠ .running ∧
    (∀ x ∈ ready0.msu.waiting, x.block ≠ 69) ∧ ready0.rgu.level ≤ 31 ∧
    nextIs (exec (.capture 9 [50]) (flight .erasing [⟨9, image0, .bulk⟩, ⟨50, image0, .bulk⟩]))
      (fun t => t.msu.queue.map Write.origin == [.bulk, .capture]) = true := by decide +kernel

theorem witness_LevelCommands : ready0.ready ∧ 31 < byteAt [32] 0 ∧ byteAt [31] 0 ≤ 31 ∧
    ready0.settings.lockMask.getLsbD 31 = false ∧
    { Settings.defaults with lockMask := 0x80000000#32 }.lockMask.getLsbD 31 = true ∧
    (flight .erasing (List.replicate 8 write0)).msu.waiting.all
      (fun w => w.block != TableId.settings.firstBlock) = true ∧
    nextIs (exec (.lockLevel 9 [31]) ready0) (fun t => t.settings.lockMask == 0x80000000#32 &&
      t.msu.queue.map Write.block == [3138]) = true := by decide +kernel

/-- Stop 255's tab stands OFF while the stop is ON: a settling with attempt `a` reached. -/
def settling (a : Nat) (faulty : Bool) : State :=
  { stops0 with rgu := { stops0.rgu with
      settle := [⟨255, true, a, some 0, true⟩], faulty := put stops0.rgu.faulty 255 faulty } }

theorem witness_TabFaultsJudged : (settling 1 false).running ∧
    (∀ x ∈ ready0.rgu.settle.head?, x.reached = false) ∧
    (settling 1 false).rgu.settle = ⟨255, true, 1, some 0, true⟩ :: [] ∧
    (settling 1 false).rgu.hasDrive 255 = false ∧
    (settling 1 false).isu.liveTabBoard 255 = some 1 ∧
    (settling 1 false).isu.tabState 255 ≠ some true ∧ (settling 2 false).rgu.hasDrive 255 = false ∧
    (settling 1 true).rgu.isFaulty 255 = true ∧ (settling 1 false).rgu.isFaulty 255 = false ∧
    (settling 1 true).ready ∧ (settling 1 true).isu.tabState 255 = some (!(settling 1 true).rgu.isOn 255) ∧
    ready0.isu.liveTabBoard 255 = none ∧
    nextIs (exec .settleExpiry (settling 1 false)) (fun t => t.rgu.settle.map Settle.attempt == [2] &&
      t.fiu.line != .idle) = true ∧
    nextIs (exec .settleExpiry (settling 2 false)) (fun t => t.rgu.isFaulty 255 &&
      t.cmu.lastTabFault == some 255) = true ∧
    nextIs (exec (.clearTabFault 9 [255]) (settling 1 true)) (fun t => !t.rgu.isFaulty 255) = true := by
  decide +kernel

/-- A tab-drive frame on the line: stop 255 still ON, stop 254 set OFF since. -/
def driving : State :=
  { stops0 with fiu := ⟨.hunting, [⟨9, 0x14, .done, [], true, [⟨1, true⟩]⟩],
      .tab ⟨1, [⟨254, true, 1⟩, ⟨255, true, 1⟩]⟩ 192⟩ }

theorem witness_TabDriveFrameTaken : driving.running ∧ ready0.fiu.line = .idle ∧
    (withReplies 1 ready0).fiu.line = .reply reply0 false ∧
    ([⟨254, true, 1⟩, ⟨255, true, 1⟩].map Drive.stop).Nodup ∧ driving.rgu.isOn 255 = true ∧
    driving.rgu.isOn 254 ≠ true ∧ driving.isu.liveTabBoard 254 = some 1 ∧
    driving.rgu.isFaulty 254 = false ∧
    nextIs (exec .tabDriveFrameComplete driving) (fun t => t.rgu.settle.map Settle.stop == [255] &&
      t.rgu.tabQueue.map DriveEntry.drives == [[⟨254, false, 1⟩]] &&
      (match t.fiu.line with | .reply r _ => r.waits.isEmpty | _ => false)) = true := by decide +kernel

/-- Assumption 43: the attempt-2 settling of stop 255 is reached while a newer drive of it is on the line. The
stop goes FAULTY, settles again when the frame completes, and is put back without a drive. -/
theorem test_faulty_stop_settles :
    let s := { settling 2 false with fiu := ⟨.hunting, [], .tab ⟨1, [⟨255, true, 1⟩]⟩ 192⟩ }
    nextIs (exec .settleExpiry s) (fun t => t.rgu.isFaulty 255 && t.rgu.settle == [] &&
      nextIs (exec .tabDriveFrameComplete t) (fun u => u.rgu.settle.map Settle.attempt == [1])) = true ∧
    nextIs (exec .settleExpiry (settling 1 true)) (fun t => t.rgu.tabQueue == [] &&
      t.rgu.settle == [⟨255, true, 2, none, false⟩]) = true := by decide +kernel

/-- Pistons of each kind. -/
def pistons0 : State :=
  { boards0 with rgu := { Rgu.reset with
      stopState := put Rgu.reset.stopState 255 true, stack := [Rgu.reset.stopState]
      pistons := put (put (put (put (put (put (put (put (put (put Rgu.reset.pistons 0 (.divisional 4 9))
        1 (.general 19)) 2 .set) 3 .push) 4 .levelUp) 5 .levelDown) 8 .pop) 7 .previous) 63 .next) 9 (.cancel none)
      position := some 19, level := 31 } }

theorem witness_PistonPressActs : nth pistons0.rgu.pistons 0 .none = .divisional 4 9 ∧
    nth pistons0.rgu.pistons 1 .none = .general 19 ∧ nth pistons0.rgu.pistons 2 .none = .set ∧
    nth pistons0.rgu.pistons 3 .none = .push ∧ nth pistons0.rgu.pistons 4 .none = .levelUp ∧
    nth pistons0.rgu.pistons 5 .none = .levelDown ∧ nth pistons0.rgu.pistons 63 .none = .next ∧
    nth pistons0.rgu.pistons 7 .none = .previous ∧ nth pistons0.rgu.pistons 62 .none = .none ∧
    pistons0.rgu.setHeld = false ∧ (pistons0.pistonEvent 2 true).rgu.setHeld = true ∧
    (pistons0.pistonEvent 4 true).rgu.level = 31 ∧ (pistons0.pistonEvent 5 true).rgu.level = 30 ∧
    (pistons0.pistonEvent 63 true).rgu.position = some 19 ∧
    (pistons0.pistonEvent 7 true).rgu.position = some 18 ∧
    nth pistons0.rgu.pistons 8 .none = .pop ∧ nth pistons0.rgu.pistons 9 .none = .cancel none ∧
    pistons0.rgu.stack = Rgu.reset.stopState :: [] ∧ ready0.rgu.stack = [] ∧
    (pistons0.pistonEvent 8 true).rgu.isOn 255 = false ∧
    ((pistons0.pistonEvent 2 true).pistonEvent 7 true).rgu.position = some 19 := by decide +kernel

/-- Inputs 2 and 7 are pressed in one frame, in that order: SET is held when PREVIOUS is pressed. -/
theorem witness_PistonPressActs_frame :
    let payload : List Byte := [0x84, 0, 0, 0, 0, 0, 0, 0]
    pistons0.running ∧ pistons0.cmu.fill = none ∧ pistons0.cmu.started = true ∧
    (pistons0.isu.board 3).entry = .valid pistonsE ∧ pistonsE.kind = .pistons ∧
    (pistons0.isu.board 3).state = .live ∧ payload.length = 8 ∧
    nextIs (exec (.scanFrame 3 payload) pistons0) (fun t => t.rgu.setHeld &&
      t.rgu.position == some 19 && nth t.rgu.pressed 7 false) = true := by decide +kernel

theorem witness_BulkJobsStart : ready0.ready ∧ ready0.msu.job.outcome ≠ .running ∧
    ready0.msu.drain = false ∧ ready0.msu.queue = [] ∧ ready0.msu.engine = .idle ∧
    [31, 0].length = 2 ∧ 31 < byteAt [32, 0] 0 ∧ 31 < byteAt [0, 32] 1 ∧ byteAt [31, 31] 0 = 31 ∧
    { ready0 with msu := { ready0.msu with drain := true } }.msu.drain = true ∧
    ready0.settings.lockMask.getLsbD 0 = false ∧
    nextIs (exec (.copyLevel 9 [31, 0]) ready0)
      (fun t => t.msu.queue.map Write.block == [0, 1, 2, 3]) = true ∧
    nextIs (exec (.commitTables 9 []) ready0)
      (fun t => t.msu.queue.map Write.block == [3072, 3073, 3074, 3075]) = true := by decide +kernel

/-- The last block of the Output Map holds one entry, 4095, and stands for index 273 modulo 256; the first of the
Rank Table holds entry 3 at byte 28. -/
theorem witness_BulkJobsStart_blocks :
    let s := { ready0 with omu := { ready0.omu with map := put ready0.omu.map 4095 (.valid ⟨.solo, 31, 63, true⟩) } }
    TableId.output.firstBlock + 273 - 3072 = 340 ∧ 273 < TableId.output.blocks ∧
    (s.configBlock 340).take 9 = [0x5A, 10, 17, 98, 3, 1, 31, 63, 0] ∧
    (s.entryBytes .output 4095).length = TableId.output.entrySize ∧
    TableId.rank.firstBlock - 3072 = 42 ∧
    ((organ0.configBlock 42).drop 28).take 8 = [1, 24, 97, 1, 3, 0xE8, 0, 0] := by decide +kernel

theorem witness_EraseAndProgramBytes : (flight .erasing [⟨4095, image0, .bulk⟩]).running ∧
    (flight .erasing [⟨4095, image0, .bulk⟩]).memoryLaw ∧ 4095 < arrayBlocks ∧
    (flight .erasing [⟨4095, image0, .bulk⟩]).msu.engine = .erasing ∧
    (flight .programming [⟨4095, image0, .bulk⟩]).msu.engine = .programming ∧
    (flight .idle []).msu.engine ≠ .erasing ∧ (∀ f ∈ [(63, (0 : Byte))], f.1 ≠ 62) := by
  decide +kernel

theorem witness_WriteReachesArray : (flight .erasing [write0]).running ∧
    (flight .erasing [write0]).memoryLaw ∧ (flight .erasing [write0]).msu.engine = .erasing ∧
    (flight .erasing [write0]).msu.queue = [write0] ∧ write0.block < arrayBlocks ∧
    write0.image.length = blockBytes ∧ blankImage.length = blockBytes ∧
    (flight .erasing [write0]).msu.job.outcome ≠ .running := by decide +kernel

/-- The verify of block 50 in an array that does not hold it, or for a blank image does. -/
def verifying (image : List Byte) (retried : Bool) (job : Job) : State :=
  { flight .verifying [⟨50, image, .capture⟩] with
    msu := { (flight .verifying [⟨50, image, .capture⟩]).msu with retried := retried, job := job } }

theorem witness_VerifyEndJudged :
    let s := verifying image0 false Job.rest
    s.running ∧ s.msu.engine = .verifying ∧ s.msu.queue = ⟨50, image0, .capture⟩ :: [] ∧
    50 < arrayBlocks ∧ readBlock s.msu.array 50 ≠ image0 ∧ s.msu.retried = false ∧
    (verifying image0 true Job.rest).msu.retried = true ∧
    readBlock (verifying blankImage false Job.rest).msu.array 50 = blankImage ∧
    (let j : Job := ⟨.copy, 0, 1, 70, .running, false, false⟩
     (verifying blankImage false j).msu.job.outcome = .running ∧ j.total ≤ j.next ∧
     nextIs (exec .verifyEnd (verifying blankImage false j))
       (fun t => t.msu.job.outcome == .complete && t.cmu.causes.getLsbD 6) = true) ∧
    nextIs (exec .verifyEnd (verifying image0 true Job.rest))
      (fun t => t.cmu.lastFaulted == some 50 && t.msu.queue.isEmpty) = true ∧
    (flight .idle []).msu.engine ≠ .verifying := by decide +kernel

/-- Jobs in each condition that the end of a write meets: three BULK entries of their own waiting and room for
their last block, no room, a source that waits to be written, a destination locked, a BULK entry left, an entry
dropped. -/
theorem witness_VerifyEndJudged_jobs :
    let job (kind : JobKind) (next : Nat) (stop : Bool) : Job := ⟨kind, 31, 0, next, .running, stop, false⟩
    let verify (queue : List Write) (job : Job) (lockMask : BitVec 32) : State :=
      { flight .verifying queue with
        settings := { Settings.defaults with lockMask := lockMask }
        msu := { (flight .verifying queue).msu with job := job } }
    let own (block : Nat) : Write := ⟨block, blankImage, .bulk⟩
    let source : Write := ⟨31 * 70 + 69, formRecord 31 69 (fun st => st == 40), .capture⟩
    (job .commit 340 false).next < (job .commit 340 false).total ∧
    (job .copy 69 false).next < (job .copy 69 false).total ∧
    (∀ x ∈ [own 3409, own 3410, own 3411], ∀ n < 1, x.block ≠ 3072 + (340 + n)) ∧
    (∀ x ∈ [own 66, own 67, own 68], ∀ n < 1, x.block ≠ 0 * 70 + (69 + n)) ∧
    nextIs (exec .verifyEnd (verify [own 3408, own 3409, own 3410, own 3411] (job .commit 340 false) 0))
      (fun t => t.msu.queue.map Write.block == [3409, 3410, 3411, 3412] &&
        t.msu.job.next == 341) = true ∧
    nextIs (exec .verifyEnd (verify [own 65, own 66, own 67, own 68] (job .copy 69 false) 0)) (fun t =>
      t.msu.queue.map Write.block == [66, 67, 68, 69] && t.msu.job.next == 70) = true ∧
    nextIs (exec .verifyEnd (verify [own 68, source] (job .copy 69 false) 0)) (fun t =>
      t.msu.queue == [source, ⟨69, formRecord 0 69 (fun st => st == 40), .bulk⟩]) = true ∧
    nextIs (exec .verifyEnd (verify
        [⟨2000, blankImage, .capture⟩, own 65, own 66, own 67, own 68] (job .copy 69 false) 0)) (fun t =>
      t.msu.queue.length == 4 && t.msu.job == job .copy 69 false) = true ∧
    nextIs (exec .verifyEnd (verify [own 68] (job .copy 69 false) 1)) (fun t =>
      t.msu.job.outcome == .stopped && t.cmu.causes == 0x40) = true ∧
    nextIs (exec .verifyEnd (verify [own 67, own 68] (job .copy 69 true) 0)) (fun t =>
      t.msu.job.outcome == .running && t.cmu.causes == 0) = true ∧
    nextIs (exec .verifyEnd { verify [] (job .commit 341 false) 0 with
        msu := { (verify [] (job .commit 341 false) 0).msu with
          queue := [⟨3412, image0, .bulk⟩], retried := true } }) (fun t =>
      t.msu.job.outcome == .faulted && t.cmu.causes == 0x60) = true := by decide +kernel

theorem witness_StoreReadsAndWriteRequests :
    let idle := (flight .idle [write0]).msu
    let busy := (flight .erasing [write0]).msu
    idle.waiting.find? (fun w => w.block == 50) = some write0 ∧
    busy.waiting.find? (fun w => w.block == 50) = none ∧ busy.engine ≠ .idle ∧
    busy.queue = write0 :: [] ∧ (∀ w ∈ busy.queue.head?, w.block ≠ 51) ∧
    judgeBlock 51 (readBlock busy.array 51) = .blank ∧
    judgeBlock 50 image0 = .good image0 ∧ judgeBlock 51 image0 = .good image0 ∧
    judgeBlock 120 image0 = .failing ∧
    (idle.waiting.any fun x => x.block == write0.block) = true ∧
    (flight .idle (List.replicate 7 write0)).msu.queue.length < 8 ∧
    8 ≤ (flight .idle (List.replicate 8 write0)).msu.queue.length := by decide +kernel

def map0 : MapEntry := ⟨.solo, 31, 63, true⟩

/-- Output 4095 mapped, inverted, and not requested. -/
def mapped : Omu :=
  ({ Omu.reset none none with map := put (Omu.reset none none).map 4095 (.valid map0) }).withLevelAt
    map0.place true

theorem witness_RequestsDrivePoints : mapped.count 4095 = 0 ∧ mapped.entry 4095 = .valid map0 ∧
    map0.board < 32 ∧ map0.point < 64 ∧ (mapped.entry 0).entry? = none ∧
    mapped.levelAt map0.place ≠ (true != map0.invert) ∧
    (mapped.take (.on 4095)).count 4095 = 1 ∧ (mapped.take (.on 4095)).count 4095 ≠ 0 ∧
    (mapped.take (.on 4095)).levelAt map0.place = false ∧
    (mapped.take (.on 4095)).solo.queue = [31] := by decide +kernel

/-- An older frame of the board on the line leaves it to the queue; an IDLE transmitter sends the new levels at
once; a board in the queue keeps its place. -/
theorem witness_RequestsDrivePoints_line :
    let older : BoardFrame := ⟨31, Vector.replicate 64 true⟩
    let link (queue : List Nat) (line : Option BoardFrame) : Link :=
      { mapped.solo with held := false, queue := queue, line := line }
    let after (l : Link) : Link := ({ mapped with solo := l }.take (.on 4095)).solo
    (after (link [] (some older))).queue = [31] ∧ (after (link [] (some older))).line = some older ∧
    (after (link [] none)).queue = [] ∧
    (after (link [] none)).line = some ⟨31, Vector.replicate 64 false⟩ ∧
    (after (link [31, 0] (some older))).queue = [31, 0] := by decide +kernel

/-- Two boards in the queue of the main link, board 31 on it. -/
def sending : State :=
  { ready0 with
    settings := { Settings.defaults with mainBoards := 0x80000003#32 }
    omu := { Omu.reset none none with
      main := ⟨(Link.reset none).image, [5, 0], false, some ⟨31, Vector.replicate 64 false⟩⟩
      refresh := some 0 } }

theorem witness_LinkFramesSent : sending.running ∧ (sending.omu.link .main).line ≠ none ∧
    (sending.omu.link .main).held = false ∧ (sending.omu.link .main).queue = 5 :: [0] ∧
    (ready0.omu.link .solo).line = none ∧ (ready0.omu.link .solo).held = true ∧
    sending.omu.refresh = some 0 ∧ ready0.omu.refresh ≠ some 0 ∧
    (let l : Link := ⟨(Link.reset none).image, [], false, none⟩
     l.queue = [] ∧ l.line = none ∧ l.held = false) ∧
    nextIs (exec (.boardFrameComplete .main) sending) (fun t => t.omu.main.queue == [0]) = true ∧
    nextIs (exec .refreshSweep sending) (fun t => t.omu.main.queue == [5, 0, 1, 31]) = true := by
  decide +kernel

theorem witness_ArbiterChooses : ready0.running ∧ ready0.fiu.line = .idle ∧
    driving.fiu.line = .tab ⟨1, [⟨254, true, 1⟩, ⟨255, true, 1⟩]⟩ 192 ∧
    (withReplies 1 ready0).fiu.line = .reply reply0 false ∧
    (let s := { ready0 with fiu := ⟨.hunting, [reply0], .idle⟩ }
     s.fiu.replies = reply0 :: [] ∧ reply0.waits = []) ∧
    (let s := { ready0 with
        fiu := ⟨.hunting, [{ reply0 with waits := [⟨1, false⟩] }], .idle⟩
        rgu := { Rgu.reset with tabQueue := [⟨1, [⟨255, true, 1⟩]⟩] } }
     (∀ r ∈ s.fiu.replies.head?, r.waits ≠ []) ∧ s.rgu.tabQueue = ⟨1, [⟨255, true, 1⟩]⟩ :: [] ∧
     (match s.arbitrate.fiu.line with | .tab e _ => e.board == 1 | _ => false) = true) ∧
    (∀ r ∈ ready0.fiu.replies.head?, r.waits ≠ []) ∧ ready0.rgu.tabQueue = [] := by decide +kernel

theorem witness_AttentionAndRestart : ready0.ready ∧ (withReplies 15 ready0).ready := by decide +kernel

theorem witness_ReadStatusTells :
    let s := { ready0 with
      cmu := { ready0.cmu with lastLost := some 31, lastRefusal := some .locked, lastFaulted := some 4095 }
      rgu := { Rgu.reset with position := some 19, level := 31 } }
    s.ready ∧ 31 ∈ s.cmu.lastLost ∧ Refused.locked ∈ s.cmu.lastRefusal ∧ 4095 ∈ s.cmu.lastFaulted ∧
    s.rgu.level < 256 ∧ s.msu.queue.length < 256 ∧ s.msu.job.next < 65536 ∧ 19 ∈ s.rgu.position ∧
    ready0.rgu.position = none := by decide +kernel

theorem witness_LoadEntryJudged : organ0.ready ∧ TableId.of (byteAt [11] 0) = none ∧
    (let ps : List Byte := [10, 0x0F, 0xFF, 3, 1, 31, 63]
     byteAt ps 0 = TableId.output.code ∧ ps.length = 3 + TableId.output.entrySize ∧
     wordAt ps 1 < TableId.output.size ∧
     TableId.output.stored (ps.drop 3) = some [3, 1, 31, 63] ∧
     organ0.loadConflict .output 4095 (ps.drop 3) = false ∧
     { organ0 with omu := { organ0.omu with map := put organ0.omu.map 0 (.valid map0) }
       }.loadConflict .output 4095 (ps.drop 3) = true) ∧
    TableId.output.size ≤ wordAt [10, 0x10, 0x00] 1 ∧ TableId.output.stored [1, 2, 0, 0] = none ∧
    (let s := { organ0 with msu := { organ0.msu with job := ⟨.commit, 0, 0, 9, .running, false, false⟩ } }
     s.msu.job.kind = .commit ∧ s.msu.job.outcome = .running) ∧
    organ0.msu.job.outcome ≠ .running := by decide +kernel

theorem witness_FillAndReadEntries : organ0.ready ∧ [2, 0, 31].length = 3 ∧
    TableId.of (byteAt [11, 0, 0] 0) = none ∧ byteAt [2, 0, 31] 0 = TableId.rank.code ∧
    wordAt [2, 0, 31] 1 < TableId.rank.size ∧ TableId.rank.size ≤ wordAt [2, 0, 32] 1 ∧
    (let ps : List Byte := [8, 0, 60, 0, 4, 2, 20, 0, 0]
     ps.length = 5 + TableId.piston.entrySize ∧ byteAt ps 0 = TableId.piston.code ∧
     wordAt ps 1 + wordAt ps 3 ≤ TableId.piston.size ∧
     nextIs (exec (.fillEntries 9 ps) organ0) (answered .range [0, 0]) = true) ∧
    (let ps : List Byte := [8, 0, 60, 0, 4, 2, 19, 0, 0]
     nextIs (exec (.fillEntries 9 ps) organ0) (fun t => t.cmu.fill ==
       some ⟨9, .piston, [2, 19, 0, 0], 61, 1, 2⟩ && answered .done [0, 4] t.finishFill) = true) ∧
    (let s := { organ0 with msu := { organ0.msu with job := ⟨.commit, 0, 0, 9, .running, false, false⟩ } }
     s.msu.job.kind = .commit ∧ s.msu.job.outcome = .running ∧
     nextIs (exec (.fillEntries 9 [8, 0, 60, 0, 4, 2, 19, 0, 0]) s) (answered .busy [0, 0]) = true ∧
     nextIs (exec (.fillEntries 9 [8, 0, 64, 0, 0, 2, 19, 0, 0]) s) (answered .done [0, 0]) = true) ∧
    TableId.piston.size < wordAt [8, 0, 60, 0, 5] 1 + wordAt [8, 0, 60, 0, 5] 3 := by decide +kernel

/-- A fill with one load after the next, and its last load. -/
def filling (entry : List Byte) (more : Nat) : State :=
  { organ0 with cmu := { organ0.cmu with fill := some ⟨9, .piston, entry, 63 - more, 2, more⟩ } }

theorem witness_FillTakesItsLoads :
    (filling [4, 0, 0, 0] 1).running ∧ (filling [4, 0, 0, 0] 1).pending = [] ∧
    (filling [4, 0, 0, 0] 1).inbound = [] ∧ ((filling [4, 0, 0, 0] 1).loadEntry .piston 62 [4, 0, 0, 0]).1 = .done ∧
    ((filling [11, 0, 0, 0] 1).loadEntry .piston 62 [11, 0, 0, 0]).1 ≠ .done ∧
    nextIs (step (filling [4, 0, 0, 0] 1)) (fun t => nth t.rgu.pistons 62 .none == .set &&
      nth t.rgu.pistons 63 .none == .none && t.cmu.fill == some ⟨9, .piston, [4, 0, 0, 0], 63, 3, 0⟩ &&
      t.fiu.replies.isEmpty) = true ∧
    nextIs (step (filling [4, 0, 0, 0] 0)) (fun t => t.cmu.fill == none && answered .done [0, 3] t) = true ∧
    nextIs (step (filling [11, 0, 0, 0] 1)) (fun t => t.cmu.fill == none && answered .range [0, 2] t) = true ∧
    Instr.commandForm (.readEntry 9 [8, 0, 63]) ≠ none ∧ Instr.commandForm .msStep = none ∧
    nextIs (exec .msStep (filling [4, 0, 0, 0] 1)) (fun t => t.cmu.fill.isSome) = true ∧
    nextIs (exec (.readEntry 9 [8, 0, 63]) (filling [4, 0, 0, 0] 1)) (fun t =>
      t.fiu.replies.map Reply.data == [[0, 4], [8, 0, 63, 4, 0, 0, 0]]) = true := by decide +kernel

/-- Fields at the ends of their ranges, taken and refused. -/
theorem witness_EntryFieldsChecked :
    bitAt [1, 1, 4, 192, 64, 4, 250, 9] 0 = true ∧ bitAt [2, 9, 9, 9] 0 = false ∧
    TableId.board.stored [0xFF, 1, 0xF4, 192, 64, 4, 250, 9] = some [1, 1, 0x84, 192, 64, 4, 250, 0] ∧
    TableId.board.stored [1, 1, 5, 192, 64, 4, 250, 9] = none ∧
    TableId.stop.stored [0x4F, 2, 31, 9, 0xF1, 9, 60, 60] = some [0x41, 2, 31, 0, 1, 0, 60, 60] ∧
    TableId.stop.stored [0x41, 2, 32, 9, 0xF1, 9, 60, 60] = none ∧
    TableId.trem.stored [1, 0x0F, 0xFF, 10, 10, 0, 9, 9] = some [1, 0x0F, 0xFF, 10, 10, 0, 0, 0] ∧
    TableId.stud.stored [0xFF, 1, 2, 3] = some [0xFF, 0, 0, 0] ∧ TableId.stud.stored [32, 0, 0, 0] = none ∧
    TableId.output.stored [2, 9, 9, 9] = some [2, 9, 9, 9] ∧
    boards0.loadConflict .board 5 [1, 1, 0, 255, 1, 1, 10, 0] = true ∧
    boards0.loadConflict .board 1 [1, 1, 0, 255, 1, 1, 10, 0] = false ∧
    TableId.board.stored [1, 1, 0, 255, 1, 1, 10, 0] ≠ none ∧
    trems0.loadConflict .trem 0 [1, 0, 0, 10, 10, 1, 5, 8] = true ∧
    trems0.loadConflict .trem 1 [1, 0, 0, 10, 10, 1, 11, 8] = true ∧
    trems0.loadConflict .trem 1 [1, 0, 0, 10, 10, 1, 0, 8] = false := by decide +kernel

theorem witness_OutgoingFrameBytes : (boards0.isu.board 1).entry = .valid tabsE ∧
    (DriveEntry.frame ⟨1, [⟨192, true, 1⟩, ⟨255, false, 2⟩]⟩ (boards0.isu.firstStop 1)).payload =
      [1, 0, 0, 0, 0, 0, 0, 0, 0, 0, 0, 0, 0, 0, 0, 0x80] ∧
    (reply0.frame true).payload = [0x40, 0, 1] ∧
    (BoardFrame.frame ⟨31, put (Vector.replicate 64 false) 63 true⟩).payload =
      [0, 0, 0, 0, 0, 0, 0, 0x80] := by decide +kernel

theorem witness_StoredEntryLoadsAsItself :
    [1, 0, 0x82, 5, 10, 2, 10, 0].length = TableId.board.entrySize ∧
    TableId.board.stored [1, 0, 0xF2, 5, 10, 2, 10, 7] = some [1, 0, 0x82, 5, 10, 2, 10, 0] ∧
    TableId.board.stored [2, 9, 0xF2, 5, 10, 2, 10, 7] = some [0, 9, 0x82, 5, 10, 2, 10, 0] := by
  decide

theorem witness_FrameRoundTrip : Instr.wellFormed (.releaseAll 7 []) = true ∧
    encodeFrame (.releaseAll 7 []) = some (frameBytes kindCommand 7 [0x35]) ∧
    Instr.wellFormed (.badFrame [1, 0, 65]) = true ∧
    decodeFrame [1, 0, 65] = some (.badFrame [1, 0, 65]) := by
  refine ⟨by decide +kernel, rfl, by decide +kernel, by decide +kernel⟩

/-- A state that meets every law, from which a step goes on. -/
def started0 : State := { State.reset with pending := [.msStep] }

theorem witness_step_goes_on : nextIs (step started0) (fun t => t.tick == 1) = true := by decide +kernel

theorem witness_StoreLawsKept : started0.memoryLaw ∧ started0.writeQueueLaw := by decide +kernel

theorem witness_StoreLawsKept_entries : started0.entryLaw := by
  intro t i h
  cases t <;> simp [State.entryBytes, started0, State.reset, Isu.reset, Isu.board, Board.reset, Une.reset, Une.stop,
    Une.rank, Ptu.reset, Ptu.unit, PercUnit.reset, Ptu.trap, TrapChan.reset, Efu.reset, Efu.trem, Trem.reset,
    Efu.expr, Expr.reset, Rgu.reset, Omu.reset, Omu.entry, nth, blankSlot, Slot.encode, encodeStud,
    PistonFn.encode, Settings.encode, flagBytes, TableId.entrySize, TableId.size] at h ⊢

theorem witness_StoreLawsKept_blocks : started0.blockLaw := by
  refine ⟨by decide, by decide, by decide, fun p hp => ?_⟩
  simp [started0, State.reset, Rgu.reset, nth, List.mem_range.mp hp]

theorem witness_ListLawsKept : started0.capacityLaw ∧ started0.tabLaw ∧ started0.linkQueueLaw ∧
    started0.intakeLaw := by
  refine ⟨by decide +kernel, by decide +kernel, by decide +kernel, trivial⟩

/-- An unfinished frame, and a fill whose last load is the last of its table. -/
theorem witness_ListLawsKept_progress : (midFrame [1] 4 []).intakeLaw ∧
    (filling [4, 0, 0, 0] 1).fillLaw ∧ (filling [4, 0, 0, 0] 1).capacityLaw ∧ started0.fillLaw := by
  refine ⟨?_, fun f hf => ?_, by decide +kernel, fun f hf => absurd hf (by simp [started0, State.reset, Cmu.reset])⟩
  · show receive [1] = .unfinished ∧ 4 ≤ 4
    decide
  · obtain rfl : (⟨9, .piston, [4, 0, 0, 0], 62, 2, 1⟩ : Fill) = f := by simpa [filling] using hf
    refine ⟨rfl, ?_, ?_, rfl, rfl, rfl, ?_⟩ <;>
      simp [TableId.size, filling, organ0, ready0, State.reset, Fiu.reset, Msu.reset, Job.rest, replyCapacity]

theorem witness_ImagesKept : started0.imageLaw ∧ started0.setHeldLaw := by decide +kernel

/-- With boards that cover every kind of thing, and a key held at second touch. -/
def played0 : State :=
  withBoards [(0, { boardOf keysE .live (some 0) with contacts := put Board.reset.contacts 60 ⟨true, 0, false⟩ }),
      (4, { boardOf keysLowE .live (some 0) with contacts := put Board.reset.contacts 60 ⟨true, 0, false⟩ }),
      (2, { boardOf studsE .live (some 0) with contacts := put Board.reset.contacts 31 ⟨true, 0, false⟩ })]
    { boards0 with
      isu := { boards0.isu with touch := put boards0.isu.touch 2 (put (Vector.replicate 61 .up) 60 .second) }
      ptu := { Ptu.reset with heldStuds := put Ptu.reset.heldStuds 31 true } }

theorem witness_ImagesKept_boards : played0.contactLaw ∧ played0.touchLaw ∧ played0.studLaw := by
  decide +kernel

theorem witness_ImagesKept_coverage : played0.coverageLaw := by decide +kernel

theorem witness_StrikeLawKept : started0.strikeLaw ∧ (blows0.ptu.unit 7).strikeLaw := by
  decide +kernel

theorem witness_OutputStateLawsKept : started0.trapLaw ∧ started0.gateLaw ∧ started0.stageLaw ∧
    started0.damperLaw ∧ (withUnit 7 { unit0 with striking := 1, damperOn := true } ready0).damperLaw := by
  decide +kernel

theorem witness_OutputStateLawsKept_cascade : trems0.cascadeLaw := by
  intro t ht e he
  have hn : t < 12 := List.mem_range.mp ht
  interval_cases t <;> simp [trems0, Efu.trem, nth, put, Efu.reset, Trem.reset, blankSlot, Slot.entry?] at he <;>
    subst he <;> simp [trem0, trem1, trems0, Efu.trem, nth, put, Efu.reset, Slot.entry?]

theorem witness_OutputImageKept : started0.outputLaw := by
  have hn : ∀ o, started0.omu.entry o = blankSlot 4 := by
    intro o; simp [started0, State.reset, Omu.reset, Omu.entry, nth]
  refine ⟨fun o _ e he => ?_, fun o _ e he => ?_, fun link board point hb hp _ => ?_⟩
  · simp [hn, blankSlot, Slot.entry?] at he
  · simp [hn, blankSlot, Slot.entry?] at he
  · cases link <;>
      simp [started0, State.reset, Omu.reset, Link.reset, Omu.levelAt, Omu.link, Link.level,
        Link.levels, nth, hb, hp]

/-- A part with no table loaded and no key held meets the laws of demand. -/
theorem blank_laws (s : State) (hu : s.une = Une.reset) (hp : s.ptu = Ptu.reset) (he : s.efu = Efu.reset)
    (ht : s.isu.touch = Isu.reset.touch) :
    s.demandSound ∧ s.percussionDemandLaw ∧ s.trapDemandLaw ∧ s.tremulantDemandLaw := by
  have hr : ∀ r, s.une.rank r = blankSlot 8 := by intro r; simp [hu, Une.reset, Une.rank, nth]
  have hs : ∀ st, s.une.stop st = blankSlot 8 := by intro st; simp [hu, Une.reset, Une.stop, nth]
  have hn : ∀ u, s.ptu.unit u = PercUnit.reset := by intro u; simp [hp, Ptu.reset, Ptu.unit, nth]
  have hc : ∀ p, s.callersOf p = 0 := by
    intro p
    have hf : ∀ st, s.calls p st = fun _ => false := by
      intro st; funext k; simp [State.calls, hs, blankSlot]
    simp [State.callersOf, hf]
  refine ⟨⟨fun r _ e h => ?_, ⟨by simp [hu, Une.reset], ?_⟩, ⟨fun st _ e h => ?_, fun r _ e h => ?_,
    fun u _ e h => ?_⟩, by rw [hu, ht]; rfl⟩, fun u _ e h => ?_, fun c _ => ?_, fun t _ => ?_⟩
  · simp [hr, blankSlot, Slot.entry?] at h
  · simp [hu, Une.reset]
  · simp [hs, blankSlot, Slot.entry?] at h
  · simp [hr, blankSlot, Slot.entry?] at h
  · simp [hn, PercUnit.reset, blankSlot, Slot.entry?] at h
  · simp [hn, PercUnit.reset, blankSlot, Slot.entry?] at h
  · simp [hc, hp, Ptu.reset, Ptu.trap, TrapChan.reset, nth]
  · simp [he, Efu.reset, Efu.trem, Trem.reset, nth, blankSlot, Slot.entry?]

theorem witness_DemandLawKept : started0.demandSound ∧ started0.percussionDemandLaw ∧
    started0.trapDemandLaw ∧ started0.tremulantDemandLaw := blank_laws _ rfl rfl rfl rfl

theorem witness_DemandLawKept_boards :
    started0.coverageLaw ∧ started0.contactLaw ∧ started0.studLaw := by decide +kernel

theorem witness_ReleaseAllSilences_laws : ready0.ready ∧ ready0.touchLaw ∧ ready0.demandSound ∧
    ready0.percussionDemandLaw ∧ ready0.trapDemandLaw := by
  obtain ⟨h1, h2, h3, -⟩ := blank_laws ready0 rfl rfl rfl rfl
  exact ⟨by decide +kernel, by decide +kernel, h1, h2, h3⟩

theorem witness_RequestLawKept : started0.requestLaw := by
  intro o ho
  have hr : ∀ r, started0.une.rank r = blankSlot 8 := by
    intro r; simp [started0, State.reset, Une.reset, Une.rank, nth]
  have hu : ∀ u, (started0.ptu.unit u).entry = blankSlot 16 := by
    intro u; simp [started0, State.reset, Ptu.reset, Ptu.unit, PercUnit.reset, nth]
  have hc : ∀ c, (started0.ptu.trap c).entry = blankSlot 8 := by
    intro c; simp [started0, State.reset, Ptu.reset, Ptu.trap, TrapChan.reset, nth]
  have ht : ∀ t, (started0.efu.trem t).entry = blankSlot 8 := by
    intro t; simp [started0, State.reset, Efu.reset, Efu.trem, Trem.reset, nth]
  have hx : ∀ x, (started0.efu.expr x).entry = blankSlot 8 := by
    intro x; simp [started0, State.reset, Efu.reset, Efu.expr, Expr.reset, nth]
  have h0 : started0.omu.count o = 0 := by
    simp [started0, State.reset, Omu.reset, Omu.count, nth]
  simp [h0, State.pipesOn, State.percussionsOn, State.trapsOn, State.tremulantsOn, State.stagesOn,
    hr, hu, hc, ht, hx, blankSlot]

/-! ## Loads, starts and lines: the clauses of one table or one form -/

/-- A store whose Tremulant Table is good: 0 FREE, 1 a slave of 0, 2 a slave of 1 (the cascade rules refuse
it), 3 with on length 9 (RANGE). The other tables' blocks are blank. -/
def tremStore : List Host.Cell :=
  let first : List Byte := [0x5A, 6, 0, 200, 1, 0x0A, 0x90, 10, 10, 0, 0, 0, 1, 0x0A, 0x91, 10, 10, 1, 0, 2,
    1, 0x0A, 0x92, 10, 10, 1, 1, 2, 1, 0x0A, 0x93, 9, 10, 0, 0, 0] ++ List.replicate 28 0
  let second : List Byte := [0x5A, 6, 1, 0] ++ List.replicate 60 0
  (first ++ second).zipIdx.map fun c => (3127 * 64 + c.2, c.1)

/-- Tremulant 1 delivered as the store holds it. -/
def cascade : State :=
  { State.reset with efu := { State.reset.efu with
      trems := put State.reset.efu.trems 1 { Trem.reset with
        entry := .valid ⟨0x0A91, 10, 10, .slave 0 2⟩ } } }

theorem tremStore_good : ∀ n < TableId.trem.blocks, (match judgeBlock (TableId.trem.firstBlock + n)
    (readBlock tremStore (TableId.trem.firstBlock + n)) with
      | .good _ => true
      | _ => false) = true := by decide +kernel

theorem witness_StartsResetUnits_tables : TableId.trem.allGood tremStore := by
  intro n hn
  have h := tremStore_good n hn
  unfold blockGood
  generalize judgeBlock _ _ = j at h ⊢
  cases j with
  | good image => exact ⟨image, rfl⟩
  | blank => simp at h
  | failing => simp at h

theorem witness_StartsResetUnits_entries :
    judgeBlock 3072 (readBlock tremStore 3072) = .blank ∧
    TableId.trem.stored (TableId.trem.storedAt tremStore 1) = some [1, 0x0A, 0x91, 10, 10, 1, 0, 2] ∧
    cascade.loadConflict .trem 1 (TableId.trem.storedAt tremStore 1) = false ∧
    cascade.entryBytes .trem 1 = [1, 0x0A, 0x91, 10, 10, 1, 0, 2] ∧
    cascade.loadConflict .trem 2 (TableId.trem.storedAt tremStore 2) = true ∧
    cascade.entryBytes .trem 2 = State.reset.entryBytes .trem 2 ∧
    TableId.trem.stored (TableId.trem.storedAt tremStore 3) = none := by decide +kernel

theorem test_start_refuses_entry :
    (cascade.deliverEntry .trem 3127 (List.replicate 20 0 ++ [1, 0x0A, 0x92, 10, 10, 1, 1, 2]) 2 2).cmu.lastFaulted
      = some 3127 := by decide +kernel

/-- The tabs of board 1 make first contact, those of board 31 come back: stop 128 waits to be driven, stop 192
settles, stop 129 is faulty. -/
def reheard : State :=
  { unheard with rgu := { unheard.rgu with
      stopState := put unheard.rgu.stopState 130 true
      tabQueue := [⟨1, [⟨192, true, 1⟩]⟩, ⟨31, [⟨131, true, 1⟩]⟩]
      settle := [⟨192, true, 1, none, false⟩, ⟨128, true, 1, none, false⟩]
      faulty := put unheard.rgu.faulty 129 true } }

theorem witness_FirstFrameEntersLive_tabs :
    let p8 : List Byte := [3, 0, 0, 0, 0, 0, 0, 0x80]
    reheard.coverageLaw ∧ reheard.running ∧ reheard.cmu.fill = none ∧
    (reheard.isu.board 31).entry = .valid { tabsE with first := 128 } ∧
    (reheard.isu.board 31).state = .lost ∧ (reheard.isu.board 1).state = .awaited ∧
    bitAt p8 0 ≠ reheard.rgu.isOn 128 ∧ reheard.rgu.isFaulty 128 = false ∧
    reheard.rgu.isFaulty 129 = true ∧ bitAt p8 3 = reheard.rgu.isOn 131 ∧
    nextIs (exec (.scanFrame 31 p8) reheard) (fun t =>
      t.rgu.drivesOf 130 == [⟨130, true, 1⟩] && t.rgu.drivesOf 128 == [⟨128, false, 1⟩] &&
      t.rgu.drivesOf 129 == [] && t.rgu.drivesOf 131 == [⟨131, true, 1⟩] &&
      t.rgu.settle == reheard.rgu.settle) = true ∧
    nextIs (exec (.scanFrame 1 p8) reheard) (fun t => t.rgu.drivesOf 192 == [] &&
      t.rgu.settle.map Settle.stop == [128]) = true := by decide +kernel

theorem witness_ShoeFrameFollowed_lost : (unheard.isu.board 4).state ≠ .unused ∧
    (unheard.isu.board 4).state = .lost ∧
    nextIs (exec (.scanFrame 4 [255, 0, 0, 128]) unheard) (fun t => t.isu.shoe 0 == 255 &&
      t.efu.shoe 3 == 128 && t.cmu.lastBack == some 4 && (t.isu.board 4).state == .live) = true := by
  decide +kernel

/-- A frame of a kind that a start afresh has left on the return line. -/
def left (kind : Byte) : State :=
  { drained with fiu := ⟨.hunting, [reply0], .stale ⟨kind, 0, []⟩⟩ }

theorem witness_ArbiterChooses_afresh :
    (drained.cmu.restartPending = true ∧ drained.cmu.restartSent = true ∧ drained.msu.queue = [] ∧
      drained.msu.job.outcome ≠ .running) ∧
    ready0.cmu.restartPending ≠ true ∧ (left 0x81).fiu.line = .stale ⟨0x81, 0, []⟩ ∧
    nextIs (exec .replyFrameComplete (left 0x81)) (fun t => t.fiu.line == .idle &&
      t.fiu.replies.length == 1) = true ∧
    nextIs (exec .replyFrameComplete (left 0x82)) (fun t => t.fiu.line != .idle) = true ∧
    nextIs (exec .tabDriveFrameComplete (left 0x82)) (fun t => t.fiu.line == .idle) = true := by
  decide +kernel

/-- The reply of a RESTART completes with the drain ended and a BUSY reply behind it. -/
theorem test_restart_sends_no_more :
    nextIs (exec .replyFrameComplete
        { ready0 with
          cmu := { ready0.cmu with restartPending := true }
          fiu := ⟨.hunting, [⟨9, 0x43, .queued, [], false, []⟩, ⟨9, 0x40, .busy, [], false, []⟩],
            .reply ⟨9, 0x43, .queued, [], false, []⟩ false⟩ })
      (fun t => t.afreshDue && t.fiu.line == .idle &&
        nextIs (exec .startAfresh t) (fun u => u.fiu.line == .idle && u.fiu.replies == [])) = true := by
  decide +kernel

/-- No stop plays the targets of the part at rest; board 1 is a TABS board and board 0 a KEYS board. -/
theorem witness_LoadEntryJudged_loaded :
    ready0.noCaller .percussion 7 ∧ ready0.noCaller .trap 31 ∧ ready0.noCaller .tremulant 11 ∧
    nth ready0.ptu.heldStuds 31 false = false ∧
    nth (put ready0.ptu.heldStuds 31 true) 31 false = true ∧
    tabsE ∈ (boards0.isu.board 1).entry.entry? ∧ tabsE.kind = .tabs ∧
    (∀ e ∈ (boards0.isu.board 0).entry.entry?, e.kind ≠ .tabs) ∧
    nextIs (exec (.loadEntry 9 ([0, 0, 1] ++ List.replicate 8 0)) boards0) (fun t =>
      (t.isu.board 1).state == .unused && (t.isu.board 1).silence == none) = true ∧
    nextIs (exec (.loadEntry 9 ([7, 0, 1] ++ expr0.encode)) boards0) (fun t =>
      t.efu.expr 1 == ⟨.valid expr0, 0, 0, 0, 0, none⟩) = true := by decide +kernel

/-- Stops of division 2 of each kind that has keys, all ON: 41 PIZZICATO, 42 SINGLE and 43 REITERATE on unit 7,
44 on channel 31, which is COUNTED; key 36 up, with its contact about to be accepted, and stud 31 on the
channel. -/
def lively : State :=
  let stops := put (put (put organ0.une.stops 42
      (.valid { stop40 with kind := .percussion, target := 7, mode := .single })) 43
      (.valid { stop40 with kind := .percussion, target := 7, mode := .reiterate })) 44
      (.valid { stop40 with kind := .trap, target := 31 })
  let board := { boardOf keysE .live (some 0) with
    contacts := put Board.reset.contacts 36 ⟨false, 1, false⟩ }
  withBoards [(0, board)] (withTrap 31 { TrapChan.reset with entry := .valid trapCounted }
    (withUnit 7 unit0 { boards0 with
      ptu := { sounding.ptu with studs := put Ptu.reset.studs 31 (some 31) }
      une := { organ0.une with
        stops := stops
        heldKeys := Une.reset.heldKeys
        stopOn := put (put (put (put Une.reset.stopOn 41 true) 42 true) 43 true) 44 true } }))

/-- The last covered key, stud and tab of a board lie in their ranges; a key that arrives adds its window,
strikes its notes and starts its run, and so does a stud. -/
theorem witness_LiveFrameDebounces_events :
    lively.running ∧ lively.cmu.fill = none ∧ (lively.isu.board 0).entry = .valid keysE ∧
    keysE.division < 5 ∧ keysE.first + keysE.count ≤ 61 ∧ studsE.first + studsE.count ≤ 32 ∧
    tabsE.first + tabsE.count ≤ 256 ∧
    nextIs (exec (.scanFrame 0 [0, 0, 0, 0, 0x10, 0, 0, 0]) lively) (fun t =>
      t.une.pizz == [⟨41, 36, 240, false⟩] && t.une.count 3 48 == 1 &&
        (t.ptu.unit 7).note 24 == ⟨.striking, 20, false, 1⟩ && (t.ptu.unit 7).damperDemand == 2 &&
        (t.ptu.unit 7).damperOn && (t.ptu.unit 7).reiterator == ⟨true, 0, false⟩ &&
        (t.ptu.trap 31).state == .striking && (t.ptu.trap 31).remaining == 15 &&
        (t.ptu.trap 31).demand == 1) = true ∧
    nextIs (exec (.scanFrame 2 [0, 0, 0, 0x80, 0, 0, 0, 0]) lively) (fun t =>
      (t.ptu.trap 31).state == .striking && (t.ptu.trap 31).remaining == 15 &&
        (t.ptu.trap 31).beat == ⟨true, 0, false⟩ && (t.ptu.trap 31).demand == 1) = true := by
  decide +kernel

/-- Key 36 and stud 31 held down and called, SET pressed, on boards whose timers have run out. -/
def held0 : State :=
  withBoards [(0, { boardOf keysE .live (some 50) with contacts := put Board.reset.contacts 36 ⟨true, 0, false⟩ }),
      (2, { boardOf studsE .live (some 50) with contacts := put Board.reset.contacts 31 ⟨true, 0, false⟩ }),
      (3, { boardOf pistonsE .live (some 250) with contacts := put Board.reset.contacts 2 ⟨true, 0, false⟩ })]
    (withTrap 31 { TrapChan.reset with
        entry := .valid trapCounted
        demand := 2 }
      (withUnit 7 { unit0 with
          damperDemand := 2
          damperOn := true
          reiterator := ⟨true, 0, false⟩
          notes := notesOf [(24, ⟨.idle, 0, false, 1⟩)] } { lively with
        isu := { lively.isu with touch := put Isu.reset.touch 2 (put (Vector.replicate 61 .up) 36 .first) }
        une := { lively.une with heldKeys := organ0.une.heldKeys }
        ptu := { lively.ptu with heldStuds := put Ptu.reset.heldStuds 31 true }
        rgu := { Rgu.reset with
          pistons := put Rgu.reset.pistons 2 .set
          pressed := put Rgu.reset.pressed 2 true
          setHeld := true } }))

/-- What the key gave has ended; the stud is up, with its call gone; SET is released. -/
def keyGone (t : State) : Bool :=
  t.isu.touchOf 2 36 == .up && t.une.heldKey 2 36 == .up && (t.ptu.unit 7).damperDemand == 0 &&
    !(t.ptu.unit 7).damperOn && !(t.ptu.unit 7).reiterator.running && (t.ptu.trap 31).demand == 1
def studGone (t : State) : Bool := !nth t.ptu.heldStuds 31 true && (t.ptu.trap 31).demand == 1
def setGone (t : State) : Bool := !nth t.rgu.pressed 2 true && !t.rgu.setHeld

theorem witness_SilenceExpiryLosesBoard_forced : held0.running ∧ (held0.isu.board 0).entry = .valid keysE ∧
    (held0.isu.board 0).silence = some keysE.timeout ∧ (held0.isu.board 2).entry = .valid studsE ∧
    (held0.isu.board 3).entry = .valid pistonsE ∧ keysE.first + keysE.count ≤ 61 ∧
    nextIs (exec (.silenceTimerExpiry 0) held0) keyGone = true ∧
    nextIs (exec (.silenceTimerExpiry 2) held0) studGone = true ∧
    nextIs (exec (.silenceTimerExpiry 3) held0) setGone = true := by decide +kernel

/-- The same by a load that makes the board UNUSED. -/
theorem witness_LoadEntryJudged_forced : held0.ready ∧
    nextIs (exec (.loadEntry 9 ([0, 0, 0] ++ List.replicate 8 0)) held0) keyGone = true ∧
    nextIs (exec (.loadEntry 9 ([0, 0, 2] ++ List.replicate 8 0)) held0) studGone = true ∧
    nextIs (exec (.loadEntry 9 ([0, 0, 3] ++ List.replicate 8 0)) held0) setGone = true := by decide +kernel

/-- A load moves output 4095 from the solo link to the main link: both points move, and both boards follow. -/
theorem witness_LoadEntryJudged_output :
    let s := { ready0 with omu := mapped }
    (s.omu.entry 4095).entry?.map MapEntry.place = some (.solo, 31, 63) ∧
    nextIs (exec (.loadEntry 9 [10, 0x0F, 0xFF, 3, 0, 0, 0]) s) (fun t => t.omu.solo.queue == [31] &&
      t.omu.main.queue == [0] && !t.omu.levelAt (.solo, 31, 63) && t.omu.levelAt (.main, 0, 0)) = true := by
  decide +kernel

/-- The boards of `lively`, not heard yet: keys that take one report, the tab of a stop that plays the held key, studs,
and pistons. -/
def newcomers : State :=
  withBoards [(0, boardOf { keysE with debounce := 1 } .awaited none), (1, boardOf tabsE .awaited none),
      (2, boardOf studsE .lost none), (3, boardOf pistonsE .awaited none)]
    { lively with
      rgu := pistons0.rgu
      une := { lively.une with stops := put lively.une.stops 192 (.valid stop40) } }

theorem witness_FirstFrameEntersLive_events :
    (newcomers.isu.board 0).entry = .valid { keysE with debounce := 1 } ∧
    (newcomers.isu.board 0).state = .awaited ∧ (newcomers.isu.board 2).state = .lost ∧
    (newcomers.isu.board 3).entry = .valid pistonsE ∧ newcomers.running ∧ newcomers.cmu.fill = none ∧
    nextIs (exec (.scanFrame 0 [0, 0, 0, 0, 0x10, 0, 0, 0]) newcomers) (fun t =>
      t.isu.touchOf 2 36 == .first && ((t.ptu.unit 7).note 24).state == .striking &&
        (t.ptu.trap 31).state == .striking) = true ∧
    nextIs (exec (.scanFrame 2 [0, 0, 0, 0x80, 0, 0, 0, 0]) newcomers) (fun t =>
      (t.ptu.trap 31).demand == 1 && nth t.ptu.heldStuds 31 false) = true ∧
    nextIs (exec (.scanFrame 3 [0x84, 0, 0, 0, 0, 0, 0, 0]) newcomers) (fun t =>
      t.rgu.setHeld && t.rgu.position == some 19) = true ∧
    nextIs (exec (.scanFrame 1 [1, 0, 0, 0, 0, 0, 0, 0])
        { newcomers with une := { newcomers.une with heldKeys := organ0.une.heldKeys } }) (fun t =>
      t.rgu.isOn 192 && t.une.isOn 192 && t.une.count 3 48 == 1) = true := by decide +kernel

/-- The withdrawn entry of board 1 is out of the wait set, that of board 31 stays in it. -/
theorem witness_FirstFrameEntersLive_waits :
    let s := { reheard with fiu := ⟨.hunting, [⟨9, 0x14, .done, [], true, [⟨1, false⟩, ⟨31, false⟩]⟩],
      .reply reply0 false⟩ }
    s.tabLaw ∧ tabs0.tabLaw ∧
    nextIs (exec (.scanFrame 1 (List.replicate 8 0)) s) (fun t =>
      t.fiu.replies.map Reply.waits == [[⟨31, false⟩]]) = true := by decide +kernel

/-- With 64 windows standing the oldest one ends and the new one joins the tail. -/
theorem test_window_overflow :
    let s := { lively with une := { lively.une with
      pizz := (List.range 64).map fun n => ⟨41, n, 1, false⟩ } }
    (s.windowAdded 41 64 (.pipe 3 48)).une.pizz.map Pizz.key = (List.range 65).drop 1 := by
  decide +kernel

/-- The begins that State.beginTaken tells apart: a note with the budget free or full, resting, or in a muted
chamber; the first REITERATE begin and a later one; a channel of each mode, invalid, or muted. -/
theorem witness_LiveFrameDebounces_begins :
    perc0 ∈ (blows0.ptu.unit 7).entry.entry? ∧ 24 < perc0.count ∧ perc0.count ≤ 49 ∧
    (unit0.note 24).state = .idle ∧ unit0.striking < perc0.budget ∧
    ((blows0.ptu.unit 7).note 1).state = .idle ∧ perc0.budget ≤ (blows0.ptu.unit 7).striking ∧
    ((blows0.ptu.unit 7).note 5).state = .resting ∧ blows0.ptu.muted perc0.chamber = false ∧
    ready0.ptu.muted perc0.chamber = true ∧
    (∀ j < 49, ((blows0.ptu.unit 7).note j).reiteration = 0) ∧
    (∃ j < 49, ((roll0.ptu.unit 7).note j).reiteration ≠ 0) ∧
    StopMode.single ≠ .reiterate ∧
    trapCounted ∈ (lively.ptu.trap 31).entry.entry? ∧ (lively.ptu.trap 0).entry.entry? = none ∧
    (lively.ptu.trap 31).out = (lively.ptu.trap 31).sounds false trapCounted ∧
    trapHeld ∈ (blows0.ptu.trap 0).entry.entry? ∧ trapRoll ∈ (traps0.ptu.trap 2).entry.entry? ∧
    (traps0.ptu.trap 2).demand = 0 ∧ trem0 ∈ (trems0.efu.trem 0).entry.entry? := by decide +kernel

/-- Each begin's own effect: queued with the budget full, pended while resting, discarded in a muted chamber. -/
theorem test_begin_note :
    ((blows0.begun (some (.note 7 1 .single))).ptu.unit 7).queue = [24, 1] ∧
    (((blows0.begun (some (.note 7 5 .single))).ptu.unit 7).note 5).pending = true ∧
    (((withUnit 7 unit0 ready0).begun (some (.note 7 24 .single))).ptu.unit 7).note 24 = Note.rest ∧
    ((roll0.begun (some (.note 7 3 .reiterate))).ptu.unit 7).note 3 = ⟨.idle, 0, false, 1⟩ := by
  decide +kernel

theorem test_begin_trap :
    ((traps0.begun (some (.trap 2))).ptu.trap 2).beat = ⟨true, 0, false⟩ ∧
    ((traps0.begun (some (.trap 2))).ptu.trap 2).pending = true ∧
    ((traps0.begun (some (.trap 0))).ptu.trap 0).remaining = 16 ∧
    ((traps0.ended (some (.trap 3))).ptu.trap 3).state = .idle := by decide +kernel

/-- Stops turned ON over a held key: SINGLE and TRAP strike, PIZZICATO adds no window. -/
theorem witness_StopsSetAsNamed_held :
    let s := { lively with une := { lively.une with
      stopOn := Une.reset.stopOn, heldKeys := organ0.une.heldKeys } }
    s.ready ∧
    nextIs (exec (.setStops 9 (digits [(41, 1), (42, 1), (44, 1)])) s) (fun t =>
      t.une.isOn 41 && t.une.pizz.isEmpty && t.une.count 3 48 == 0 &&
        ((t.ptu.unit 7).note 24).state == .striking && (t.ptu.trap 31).state == .striking) = true := by
  decide +kernel

/-- An UNKNOWN_COMMAND that stands for a frame waits for the fill's end; one that stands for none does not. -/
theorem witness_FillTakesItsLoads_unknown :
    commandOf 9 [0x44] = .unknownCommand 9 [0x44] ∧ commandOf 9 [0x43] ≠ .unknownCommand 9 [0x43] ∧
    nextIs (exec (.unknownCommand 9 [0x44]) (filling [4, 0, 0, 0] 1)) (fun t =>
      t.cmu.fill == none && t.fiu.replies.map Reply.result == [.done, .unknown]) = true ∧
    nextIs (exec (.unknownCommand 9 [0x43]) (filling [4, 0, 0, 0] 1)) (fun t => t.cmu.fill.isSome) = true := by
  decide +kernel

end Sys2Proof.Machine
end

/-! ## Proofs: pitch arithmetic and folds (R32 to R35) -/

namespace Sys2Proof.Machine

/-! ### The four ways the arithmetic of a key ends -/

section PitchIndex

variable {e : StopEntry} {lowest count k : Nat}

theorem pitchIndex_of_outside_span (hk : k < e.lowKey ∨ e.highKey < k) :
    pitchIndex e lowest count k = none :=
  if_pos hk

/-- Inside the span the result is decided by where the raw index lies (R33). -/
theorem pitchIndex_of_inside_span (hlow : e.lowKey ≤ k) (hhigh : k ≤ e.highKey) {i : Int}
    (hi : i = 36 + k + e.offset - lowest) :
    pitchIndex e lowest count k =
      if 0 ≤ i ∧ i < count then some i.toNat
      else if (count : Int) ≤ i then foldDown e.fold count i
      else foldUp e.fold count i := by
  subst hi
  exact if_neg (by omega)

theorem pitchIndex_of_inCompass (hlow : e.lowKey ≤ k) (hhigh : k ≤ e.highKey) {i : Int}
    (hi : i = 36 + k + e.offset - lowest) (h0 : 0 ≤ i) (hc : i < count) :
    pitchIndex e lowest count k = some i.toNat := by
  rw [pitchIndex_of_inside_span hlow hhigh hi, if_pos ⟨h0, hc⟩]

theorem pitchIndex_of_above (hlow : e.lowKey ≤ k) (hhigh : k ≤ e.highKey) {i : Int}
    (hi : i = 36 + k + e.offset - lowest) (hc : (count : Int) ≤ i) :
    pitchIndex e lowest count k = foldDown e.fold count i := by
  rw [pitchIndex_of_inside_span hlow hhigh hi, if_neg (by omega), if_pos hc]

theorem pitchIndex_of_below (hlow : e.lowKey ≤ k) (hhigh : k ≤ e.highKey) {i : Int}
    (hi : i = 36 + k + e.offset - lowest) (h0 : i < 0) :
    pitchIndex e lowest count k = foldUp e.fold count i := by
  rw [pitchIndex_of_inside_span hlow hhigh hi, if_neg (by omega), if_neg (by omega)]

end PitchIndex

/-! ### The fewest octaves that bring an index into the compass

An index that has moved by `r` octaves has just crossed the edge it came over: `r - 1` octaves leave it
outside. Division by 12 names that `r`. -/

theorem fewest_octaves_down_iff (count i r : Int) :
    (i - 12 * r < count ∧ count ≤ i - 12 * (r - 1)) ↔ r = (i - count) / 12 + 1 := by
  omega

theorem fewest_octaves_up_iff (i r : Int) :
    (0 ≤ i + 12 * r ∧ i + 12 * (r - 1) < 0) ↔ r = (-i - 1) / 12 + 1 := by
  omega

/-! ### Folding down (R34) -/

section FoldDown

variable {fold : Fold} {count : Nat} {i : Int}

theorem foldDown_of_not_folds (hf : fold = .none ∨ fold = .up) : foldDown fold count i = none := by
  obtain rfl | rfl := hf <;> rfl

theorem foldDown_of_folds (hf : fold = .down ∨ fold = .both) :
    foldDown fold count i =
      if 0 ≤ i - 12 * ((i - count) / 12 + 1) then some (i - 12 * ((i - count) / 12 + 1)).toNat
      else none :=
  if_pos hf

theorem foldDown_eq_some_iff (hf : fold = .down ∨ fold = .both) {j : Nat} :
    foldDown fold count i = some j ↔ (j : Int) = i - 12 * ((i - count) / 12 + 1) := by
  rw [foldDown_of_folds hf, Option.ite_none_right_eq_some, Option.some_inj]
  omega

theorem foldDown_eq_some_iff_fewest (hf : fold = .down ∨ fold = .both) (hi : (count : Int) ≤ i)
    {j : Nat} :
    foldDown fold count i = some j ↔
      ∃ r : Nat, 1 ≤ r ∧ (j : Int) = i - 12 * r ∧ j < count ∧ (count : Int) ≤ i - 12 * (r - 1) := by
  rw [foldDown_eq_some_iff hf]
  constructor
  · intro hj
    exact ⟨((i - count) / 12 + 1).toNat, by omega⟩
  · rintro ⟨r, -, hj, hlt, hle⟩
    rw [hj, ← (fewest_octaves_down_iff count i r).mp ⟨by omega, hle⟩]

theorem foldDown_in_top_octave (hf : fold = .down ∨ fold = .both) {j : Nat}
    (hj : foldDown fold count i = some j) : count ≤ j + 12 := by
  rw [foldDown_eq_some_iff hf] at hj
  omega

theorem foldDown_isSome (hf : fold = .down ∨ fold = .both) (hc : 12 ≤ count) :
    (foldDown fold count i).isSome = true := by
  have hj : 0 ≤ i - 12 * ((i - count) / 12 + 1) := by omega
  rw [foldDown_of_folds hf, if_pos hj, Option.isSome_some]

end FoldDown

/-! ### Folding up (R35) -/

section FoldUp

variable {fold : Fold} {count : Nat} {i : Int}

theorem foldUp_of_not_folds (hf : fold = .none ∨ fold = .down) : foldUp fold count i = none := by
  obtain rfl | rfl := hf <;> rfl

theorem foldUp_of_folds (hf : fold = .up ∨ fold = .both) :
    foldUp fold count i =
      if i + 12 * ((-i - 1) / 12 + 1) < count then some (i + 12 * ((-i - 1) / 12 + 1)).toNat
      else none :=
  if_pos hf

theorem foldUp_eq_some_iff (hf : fold = .up ∨ fold = .both) {j : Nat} :
    foldUp fold count i = some j ↔
      (j : Int) = i + 12 * ((-i - 1) / 12 + 1) ∧ j < count := by
  rw [foldUp_of_folds hf, Option.ite_none_right_eq_some, Option.some_inj]
  omega

theorem foldUp_eq_some_iff_fewest (hf : fold = .up ∨ fold = .both) (hi : i < 0) {j : Nat} :
    foldUp fold count i = some j ↔
      ∃ r : Nat, 1 ≤ r ∧ (j : Int) = i + 12 * r ∧ j < count ∧ i + 12 * (r - 1) < 0 := by
  rw [foldUp_eq_some_iff hf]
  constructor
  · rintro ⟨hj, hlt⟩
    exact ⟨((-i - 1) / 12 + 1).toNat, by omega⟩
  · rintro ⟨r, -, hj, hlt, hneg⟩
    exact ⟨by rw [hj, ← (fewest_octaves_up_iff i r).mp ⟨by omega, hneg⟩], hlt⟩

theorem foldUp_in_bottom_octave (hf : fold = .up ∨ fold = .both) {j : Nat}
    (hj : foldUp fold count i = some j) : j < 12 := by
  obtain ⟨hj, -⟩ := (foldUp_eq_some_iff hf).mp hj
  omega

theorem foldUp_isSome (hf : fold = .up ∨ fold = .both) (hc : 12 ≤ count) :
    (foldUp fold count i).isSome = true := by
  have hj : i + 12 * ((-i - 1) / 12 + 1) < count := by omega
  rw [foldUp_of_folds hf, if_pos hj, Option.isSome_some]

end FoldUp

/-- Settles O14: the branches of `pitchIndex` by where the raw index lies, and the octaves of a fold by
division. -/
theorem pitchAndFoldArithmetic : Obligations.PitchAndFoldArithmetic := by
  constructor
  · intro e lowest count k
    refine ⟨pitchIndex_of_outside_span, fun hlow hhigh i hi => ⟨?_, ?_, ?_⟩, ?_⟩
    · exact pitchIndex_of_inCompass hlow hhigh hi
    · exact fun hc _ => pitchIndex_of_above hlow hhigh hi hc
    · exact pitchIndex_of_below hlow hhigh hi
    · omega
  · intro fold count i _
    constructor
    · intro hi
      refine ⟨foldDown_of_not_folds, fun hf => ⟨fun j => ?_, fun j hj => ?_, foldDown_isSome hf⟩⟩
      · exact foldDown_eq_some_iff_fewest hf hi
      · exact ⟨(foldDown_eq_some_iff hf).mp hj, foldDown_in_top_octave hf hj⟩
    · intro hi
      refine ⟨foldUp_of_not_folds, fun hf => ⟨fun j => ?_, fun j hj => ?_, foldUp_isSome hf⟩⟩
      · exact foldUp_eq_some_iff_fewest hf hi
      · exact ⟨((foldUp_eq_some_iff hf).mp hj).1, foldUp_in_bottom_octave hf hj⟩

end Sys2Proof.Machine

/-! ## Proofs: tremulants and expression (R106, R113 to R118) -/

namespace Sys2Proof.Machine

/-! ### The level of a position (R113) -/

theorem levelOf_linear (p : Nat) : levelOf .linear p = p / 4 := rfl

theorem levelOf_tapered_zero : levelOf .tapered 0 = 0 := rfl

section Tapered

variable {p e : Nat}

theorem exponent_lt_eight (hp : p ≤ 255) (hlow : 2 ^ e ≤ p) : e < 8 :=
  (Nat.pow_lt_pow_iff_right (by decide : 1 < 2)).mp (by omega)

/-- The eight powers that `highestBit` tries are those up to `2 ^ e`: their number is `e + 1`. -/
theorem highestBit_eq (hp : p ≤ 255) (hlow : 2 ^ e ≤ p) (hhigh : p < 2 ^ (e + 1)) :
    highestBit p = e := by
  have hpow (k : Nat) : 2 ^ k ≤ p ↔ k ≤ e := by
    constructor
    · intro hk
      exact Nat.lt_succ_iff.mp ((Nat.pow_lt_pow_iff_right (by decide)).mp (hk.trans_lt hhigh))
    · exact fun hk => (Nat.pow_le_pow_right (by decide) hk).trans hlow
  have hcount : ∀ e < 8, ((List.range 8).filter (· ≤ e)).length = e + 1 := by decide
  simp only [highestBit, hpow, hcount e (exponent_lt_eight hp hlow), Nat.add_sub_cancel]

theorem levelOf_tapered (hp : p ≤ 255) (hlow : 2 ^ e ≤ p) (hhigh : p < 2 ^ (e + 1)) :
    levelOf .tapered p = 8 * e + (p * 8 / 2 ^ e - 8) := by
  have hpos : p ≠ 0 := (Nat.two_pow_pos e |>.trans_le hlow).ne'
  simp [levelOf, hpos, highestBit_eq hp hlow hhigh]

/-- Below the next power of two the octave's levels run from 0 to 7. -/
theorem tapered_fraction_le (hhigh : p < 2 ^ (e + 1)) : p * 8 / 2 ^ e - 8 ≤ 7 := by
  have hlt : p * 8 / 2 ^ e < 16 := Nat.div_lt_of_lt_mul (by omega)
  omega

end Tapered

theorem levelOf_le (curve : Curve) {p : Nat} (hp : p ≤ 255) : levelOf curve p ≤ 63 := by
  cases curve with
  | linear => rw [levelOf_linear]; omega
  | tapered =>
    obtain rfl | hpos := Nat.eq_zero_or_pos p
    · exact Nat.zero_le _
    · have hlow : 2 ^ p.log2 ≤ p := Nat.log2_self_le hpos.ne'
      have hhigh : p < 2 ^ (p.log2 + 1) := Nat.lt_log2_self
      have he := exponent_lt_eight hp hlow
      have hfraction := tapered_fraction_le hhigh
      rw [levelOf_tapered hp hlow hhigh]
      omega

/-! ### The target of a level (R115) -/

/-- Half a stage added before the division: the quotient is the nearest whole stage to
`a * stages / 63`. -/
theorem targetOf_nearest (stages a : Nat) :
    63 * targetOf stages a ≤ a * stages + 31 ∧ a * stages ≤ 63 * targetOf stages a + 31 := by
  rw [targetOf, Nat.mul_assoc]
  omega

theorem targetOf_zero (stages : Nat) : targetOf stages 0 = 0 := by simp [targetOf]

theorem targetOf_full (stages : Nat) : targetOf stages 63 = stages := by
  rw [targetOf]
  omega

theorem targetOf_mono (stages : Nat) {a a' : Nat} (h : a ≤ a') :
    targetOf stages a ≤ targetOf stages a' := by
  unfold targetOf
  gcongr

/-- Settles O26: the tapered curve by the position's highest bit, the nearest stage by the division's
rounding. -/
theorem levelAndTargetArithmetic : Obligations.LevelAndTargetArithmetic := by
  refine ⟨levelOf_linear, levelOf_tapered_zero, ?tapered, fun curve p hp => levelOf_le curve hp,
    fun h l a => ⟨fun hc => if_pos hc, fun hc => if_neg hc⟩,
    fun stages a _ => targetOf_nearest stages a,
    fun stages => ⟨targetOf_zero stages, targetOf_full stages⟩,
    fun stages a a' h => targetOf_mono stages h⟩
  case tapered =>
    exact fun p e hp hlow hhigh => ⟨tapered_fraction_le hhigh, levelOf_tapered hp hlow hhigh⟩

/-! ### SET TREMULANT (R106) -/

theorem Efu.setLengths_of_valid {f : Efu} {t : Nat} {e : TremEntry}
    (h : (f.trem t).entry = .valid e) (on off : Nat) :
    f.setLengths t on off = { f with trems := put f.trems t { f.trem t with
      entry := .valid { e with onLength := on, offLength := off } } } := by
  simp [Efu.setLengths, h]

section SetTremulant

variable {ps : List Byte} {s : State}

theorem setTremulantAct_of_refused
    (h : 12 ≤ byteAt ps 0 ∨ (s.efu.trem (byteAt ps 0)).entry.entry? = none ∨ byteAt ps 1 < 10 ∨
      byteAt ps 2 < 10) : setTremulantAct ps s = refuse .range s := by
  apply if_neg
  rintro ⟨ht, hvalid, hon, hoff⟩
  obtain h | h | h | h := h
  · omega
  · simp [h] at hvalid
  · omega
  · omega

theorem setTremulantAct_of_valid {e : TremEntry} (ht : byteAt ps 0 < 12)
    (hvalid : (s.efu.trem (byteAt ps 0)).entry = .valid e) (hon : 10 ≤ byteAt ps 1)
    (hoff : 10 ≤ byteAt ps 2) :
    setTremulantAct ps s =
      done (s.withEfu (s.efu.setLengths (byteAt ps 0) (byteAt ps 1) (byteAt ps 2))) :=
  if_pos ⟨ht, by simp [hvalid, Slot.entry?], hon, hoff⟩

theorem exec_setTremulant {p : Byte} (hs : s.ready) (hlen : ps.length = 3) {a : Answer}
    (ha : setTremulantAct ps s.frameEnded = a) :
    exec (.setTremulant p ps) s = .next (a.state.replied p 0x22 false a.result a.data) :=
  ha ▸ command_ready hs hlen

end SetTremulant

/-! ### A fresh reading of a shoe (R116, R118) -/

section FreshReading

variable {e : ExprEntry} {p : Nat} {x : Expr}

theorem Expr.follow_of_slew_zero (h : e.slew = 0) :
    Expr.follow e x =
      ({ x with target := targetOf e.stages x.accepted, current := targetOf e.stages x.accepted },
        stageRequests e.firstOut x.current (targetOf e.stages x.accepted)) :=
  if_pos h

theorem Expr.follow_of_slew (h : e.slew ≠ 0) :
    Expr.follow e x =
      ({ x with
          target := targetOf e.stages x.accepted,
          timer := if targetOf e.stages x.accepted ≠ x.current ∧ x.timer = none then some e.slew
            else x.timer }, []) := by
  rw [Expr.follow, if_neg h]
  split <;> rfl

variable (e x) in
/-- What a following takes and what it leaves alone, whatever the slew. -/
theorem Expr.follow_spec :
    (Expr.follow e x).1.entry = x.entry ∧ (Expr.follow e x).1.level = x.level ∧
      (Expr.follow e x).1.accepted = x.accepted ∧
      (Expr.follow e x).1.target = targetOf e.stages (Expr.follow e x).1.accepted := by
  by_cases h : e.slew = 0
  · simp [Expr.follow_of_slew_zero h]
  · simp [Expr.follow_of_slew h]

variable (e p x) in
theorem Expr.freshReading_spec :
    (Expr.freshReading e p x).1.entry = x.entry ∧
      (Expr.freshReading e p x).1.level = levelOf e.curve p ∧
      (Expr.freshReading e p x).1.accepted = (Expr.freshReading e p x).1.level ∧
      (Expr.freshReading e p x).1.target =
        targetOf e.stages (Expr.freshReading e p x).1.accepted := by
  obtain ⟨hentry, hlevel, haccepted, htarget⟩ := Expr.follow_spec e
    { x with level := levelOf e.curve p, accepted := levelOf e.curve p }
  exact ⟨hentry, hlevel, haccepted.trans hlevel.symm, htarget⟩

theorem Expr.freshReading_of_slew_zero (h : e.slew = 0) :
    (Expr.freshReading e p x).1.current = (Expr.freshReading e p x).1.target ∧
      (Expr.freshReading e p x).2 =
        stageRequests e.firstOut x.current (Expr.freshReading e p x).1.target := by
  simp [Expr.freshReading, Expr.follow_of_slew_zero h]

theorem Expr.freshReading_of_slew (h : e.slew ≠ 0) :
    (Expr.freshReading e p x).1.current = x.current ∧ (Expr.freshReading e p x).2 = [] ∧
      (Expr.freshReading e p x).1.timer =
        if (Expr.freshReading e p x).1.target ≠ x.current ∧ x.timer = none then some e.slew
        else x.timer := by
  simp [Expr.freshReading, Expr.follow_of_slew h]

end FreshReading

/-! ### ASSIGN SHOE (R118) -/

/-- The reading that ASSIGN SHOE takes on a valid channel: its entry names the new shoe, and the shoe's
last position is read afresh. -/
def Efu.shoeReading (f : Efu) (x shoe : Nat) (e : ExprEntry) : Expr × List Req :=
  Expr.freshReading { e with shoe := shoe } (f.shoe shoe)
    { f.expr x with entry := .valid { e with shoe := shoe } }

section ShoeReading

variable {f : Efu} {x shoe : Nat} {e : ExprEntry}

variable (f x shoe e) in
theorem Efu.shoeReading_spec :
    (f.shoeReading x shoe e).1.entry = .valid { e with shoe := shoe } ∧
      (f.shoeReading x shoe e).1.level = levelOf e.curve (f.shoe shoe) ∧
      (f.shoeReading x shoe e).1.accepted = (f.shoeReading x shoe e).1.level ∧
      (f.shoeReading x shoe e).1.target = targetOf e.stages (f.shoeReading x shoe e).1.accepted :=
  Expr.freshReading_spec _ _ _

theorem Efu.shoeReading_of_slew_zero (h : e.slew = 0) :
    (f.shoeReading x shoe e).1.current = (f.shoeReading x shoe e).1.target ∧
      (f.shoeReading x shoe e).2 =
        stageRequests e.firstOut (f.expr x).current (f.shoeReading x shoe e).1.target :=
  Expr.freshReading_of_slew_zero h

theorem Efu.shoeReading_of_slew (h : e.slew ≠ 0) :
    (f.shoeReading x shoe e).1.current = (f.expr x).current ∧ (f.shoeReading x shoe e).2 = [] ∧
      (f.shoeReading x shoe e).1.timer =
        if (f.shoeReading x shoe e).1.target ≠ (f.expr x).current ∧ (f.expr x).timer = none
        then some e.slew else (f.expr x).timer :=
  Expr.freshReading_of_slew h

theorem Efu.assignShoe_of_valid (h : (f.expr x).entry = .valid e) (shoe : Nat) :
    f.assignShoe x shoe =
      ({ f with exprs := put f.exprs x (f.shoeReading x shoe e).1 }, (f.shoeReading x shoe e).2) := by
  simp only [Efu.assignShoe, Efu.onExpr, Efu.shoeReading, h]

theorem Efu.expr_assignShoe (hx : x < 2) (h : (f.expr x).entry = .valid e) (shoe : Nat) :
    (f.assignShoe x shoe).1.expr x = (f.shoeReading x shoe e).1 := by
  rw [Efu.assignShoe_of_valid h]
  exact nth_put_same _ hx _ _

end ShoeReading

/-- The EFU's work reaches no part but the EFU and, by its requests, the OMU. -/
theorem State.efuDo_frame (s : State) (f : Efu → Efu × List Req) :
    unchangedBut [.efu, .omu] s (s.efuDo f) := by
  intro part hpart
  cases part
  case efu => simp at hpart
  case omu => simp at hpart
  all_goals rfl

section AssignShoe

variable {ps : List Byte} {s : State}

theorem assignShoeAct_of_refused
    (h : 2 ≤ byteAt ps 0 ∨ 4 ≤ byteAt ps 1 ∨ (s.efu.expr (byteAt ps 0)).entry.entry? = none) :
    assignShoeAct ps s = refuse .range s := by
  apply if_neg
  rintro ⟨hx, hshoe, hvalid⟩
  obtain h | h | h := h
  · omega
  · omega
  · simp [h] at hvalid

theorem assignShoeAct_of_valid {e : ExprEntry} (hx : byteAt ps 0 < 2) (hshoe : byteAt ps 1 < 4)
    (hvalid : (s.efu.expr (byteAt ps 0)).entry = .valid e) :
    assignShoeAct ps s = done (s.efuDo (Efu.assignShoe (byteAt ps 0) (byteAt ps 1))) :=
  if_pos ⟨hx, hshoe, by simp [hvalid, Slot.entry?]⟩

theorem exec_assignShoe {p : Byte} (hs : s.ready) (hlen : ps.length = 2) {a : Answer}
    (ha : assignShoeAct ps s.frameEnded = a) :
    exec (.assignShoe p ps) s = .next (a.state.replied p 0x23 false a.result a.data) :=
  ha ▸ command_ready hs hlen

end AssignShoe

/-- Settles O27: each command's own checks, then the lengths replaced or the fresh reading by its slew. -/
theorem tremulantAndShoeCommands : Obligations.TremulantAndShoeCommands := by
  constructor
  · intro s p ps hs hlen
    refine ⟨fun hrefused => ?_, fun e ht hvalid hon hoff => ?_⟩
    · exact exec_setTremulant hs hlen (setTremulantAct_of_refused hrefused)
    · rw [← Efu.setLengths_of_valid hvalid]
      exact exec_setTremulant hs hlen (setTremulantAct_of_valid ht hvalid hon hoff)
  · intro s p ps hs hlen
    refine ⟨fun hrefused => ?_, fun e hx hshoe hvalid => ?_⟩
    · exact exec_assignShoe hs hlen (assignShoeAct_of_refused hrefused)
    · refine ⟨_, exec_assignShoe hs hlen (assignShoeAct_of_valid hx hshoe hvalid),
        State.efuDo_frame _ _, ?_⟩
      have hefu := Efu.assignShoe_of_valid hvalid (byteAt ps 1)
      have hexpr := Efu.expr_assignShoe hx hvalid (byteAt ps 1)
      obtain ⟨hentry, hlevel, haccepted, htarget⟩ := Efu.shoeReading_spec s.efu (byteAt ps 0)
        (byteAt ps 1) e
      simp only [done, State.efuDo_efu, State.efuDo_omu, frameEnded_eq, hexpr]
      refine ⟨by rw [hefu], hentry, hlevel, haccepted, htarget, fun hslew => ?_, fun hslew => ?_⟩
      · obtain ⟨hcurrent, hrequests⟩ := Efu.shoeReading_of_slew_zero hslew
        exact ⟨hcurrent, by rw [hefu, hrequests]⟩
      · obtain ⟨hcurrent, hrequests, htimer⟩ := Efu.shoeReading_of_slew hslew
        exact ⟨hcurrent, by rw [hefu, hrequests]; rfl, htimer⟩

end Sys2Proof.Machine
